-- ==== Sys2Proof/Word.lean ====
section
/-! DEFINITION. The units of data of AES-comp CORE: bytes, words, offsets and the three byte strings (00_scope.md R8, R9, R11, R13). -/

namespace Sys2Proof

/-- A byte: 8 bits (R11). Every host-visible register is one byte (R9). -/
abbrev Byte := BitVec 8

/-- A word of the key schedule: 32 bits, bit 31 the most significant (R13). -/
abbrev Word := BitVec 32

/-- A 12-bit offset into the register space, counted from `BASE` (R9, R60). -/
abbrev Addr := BitVec 12

/-- A host-transaction word of format `HT24` (R91). -/
abbrev HtWord := BitVec 24

/-- A 16-byte string: a key, a round key, or a block read as a State (R8). -/
abbrev Block := Vector Byte 16

/-- A 32-byte string: a block pair, lane A first (R8, R66). -/
abbrev Pair := Vector Byte 32

/-- A 176-byte string: a round-key schedule (R8). -/
abbrev Schedule := Vector Byte 176

end Sys2Proof
end

