-- ==== Sys2Proof/Config.lean ====
section
/-! DEFINITION. What the spec fixes once (offsets of the register space, command codes, lengths) and what it leaves open (the parameters of 00_scope.md R10, as constants without a body). -/

namespace Sys2Proof

/-- Offset of `CMD` (R46, R71). -/
abbrev Offset.cmd : Addr := 0x000
/-- Offset of `STATUS` (R44, R71). -/
abbrev Offset.status : Addr := 0x001
/-- Offset of `ERR` (R48, R71). -/
abbrev Offset.err : Addr := 0x002
/-- Offset of `KEYLEN` (R49, R71). -/
abbrev Offset.keylen : Addr := 0x004
/-- Offset of `BLKLEN` (R49, R71). -/
abbrev Offset.blklen : Addr := 0x005
/-- Offset of `SCHEDLEN` (R49, R71). -/
abbrev Offset.schedlen : Addr := 0x006
/-- First offset of `KEYBUF[0..15]` (R21, R71). -/
abbrev Offset.keybuf : Addr := 0x010
/-- First offset of `BLK[0..31]` (R22, R71). -/
abbrev Offset.blk : Addr := 0x020
/-- First offset of lane B of `BLK` (R71, R101). -/
abbrev Offset.blkB : Addr := 0x030
/-- First offset of `SCHED[0..175]` (R23, R71). -/
abbrev Offset.sched : Addr := 0x100

/-- The command code of `EXPAND` (R95). -/
abbrev CommandCode.expand : Byte := 0x01
/-- The command code of `ENCRYPT_PAIR` (R95). -/
abbrev CommandCode.encryptPair : Byte := 0x02

/-- The key length `EXPAND` asks of `KEYLEN` (R147). -/
abbrev Config.keyBytes : Byte := 16
/-- The pair length `ENCRYPT_PAIR` asks of `BLKLEN` (R173). -/
abbrev Config.pairBytes : Byte := 32
/-- The schedule length `ENCRYPT_PAIR` asks of `SCHEDLEN`, and the value `EXPAND` leaves there (R148, R173). -/
abbrev Config.schedBytes : Byte := 0xB0

/-- `BASE`: where the platform places offset 0 (R10). No rule depends on its value. DESIGN CHOICE (safe), log entry 13. -/
opaque Config.base : Nat

/-- `LAT_EXPAND` (R10, R245): how many moves of the host fall between the acceptance of an `EXPAND` and its
completion. Finite and otherwise free: one draw for each accepted command. DESIGN CHOICE (safe), log entry 2. -/
opaque Config.latExpand : Nat → Nat

/-- `LAT_ENCRYPT` (R10, R245), as `Config.latExpand`. DESIGN CHOICE (safe), log entry 2. -/
opaque Config.latEncrypt : Nat → Nat

/-- `UNWRITTEN` (R10, R230, U1): the byte that the reset with the given draw number leaves at the given offset of a
buffer. Free for each byte and each reset. DESIGN CHOICE (safe), log entry 1. -/
opaque Config.unwritten : Nat → Nat → Byte

/-- The byte that a read of a buffer offset returns while `ST = BUSY` (R190, R242, U2): a fresh draw for each read.
DESIGN CHOICE (safe), log entry 4. -/
opaque Config.busyRead : Nat → Byte

end Sys2Proof
end

