-- ==== Sys2Proof/Syntax.lean ====
section
/-! DEFINITION. The instructions: one constructor for each row of spec/opcode_table.json (30_encoding.md R90 to R96). -/

namespace Sys2Proof

/-- The host's moves (R90): the two transactions and the two commands.
A command is a `WR` of its code to `CMD` (R102, R103), so every instruction is one host transaction. -/
inductive Instr where
  /-- `RD addr`: read the byte at an offset (R92, R190). -/
  | rd (addr : Addr)
  /-- `WR addr, data`: write a byte to an offset (R93, R191). -/
  | wr (addr : Addr) (data : Byte)
  /-- `EXPAND`: the command of code 0x01 (R95, R147). -/
  | expand
  /-- `ENCRYPT_PAIR`: the command of code 0x02 (R95, R173). -/
  | encryptPair
  deriving DecidableEq, Repr

end Sys2Proof
end

