-- ==== Sys2Proof/WellFormed.lean ====
section
/-! DEFINITION. Which instruction terms are well formed: the one spelling of each host-transaction word. -/

namespace Sys2Proof

/-- Whether a byte is the code of a command (R95). -/
def isCommandCode (c : Byte) : Bool :=
  c == CommandCode.expand || c == CommandCode.encryptPair

/-- The words 0x100001 and 0x100002 are the commands themselves (R95, R102, R103), so a `WR` term that would write a
command's code to `CMD` is not well formed: the command's own constructor spells that word. Every field of every other
term has exactly the width its format gives it (R91), so nothing else can be ill formed. -/
def Instr.wellFormed : Instr → Bool
  | .rd _ => true
  | .wr addr data => !(addr == Offset.cmd && isCommandCode data)
  | .expand => true
  | .encryptPair => true

end Sys2Proof
end

