-- ==== Sys2Proof/Decode.lean ====
section
/-! DEFINITION. The decoder of HT24 words and CMD8 bytes, total and rejecting by name, and after it the encoder (30_encoding.md R91 to R98). -/

namespace Sys2Proof

/-- Why a word or a byte is no instruction. -/
inductive DecodeError where
  /-- `kind` is 0x2 to 0xF (R98). -/
  | reservedKind
  /-- `kind` is 0x0 and `data` is not 0x00 (R98). -/
  | readWithData
  /-- A command byte that is neither 0x01 nor 0x02 (R97). -/
  | reservedCommandCode
  deriving DecidableEq, Repr

/-- Field `kind`, bits 23:20 of an `HT24` word (R91). -/
def htKind (w : HtWord) : BitVec 4 := w.extractLsb' 20 4

/-- Field `addr`, bits 19:8 of an `HT24` word (R91). -/
def htAddr (w : HtWord) : Addr := w.extractLsb' 8 12

/-- Field `data`, bits 7:0 of an `HT24` word (R91). -/
def htData (w : HtWord) : Byte := w.extractLsb' 0 8

/-- The command a `CMD8` byte is the code of (R94, R95). Every other byte is reserved (R97). -/
def decodeCommand (c : Byte) : Except DecodeError Instr :=
  if c = CommandCode.expand then .ok .expand
  else if c = CommandCode.encryptPair then .ok .encryptPair
  else .error .reservedCommandCode

/-- The transaction of kind 0x1 (R93). A `WR` to `CMD` of a command's code is that command (R102, R103); a `WR` to
`CMD` of a reserved code is still a transaction, which changes nothing (R97). DEDUCED (safe), log entry 8. -/
def decodeWrite (addr : Addr) (data : Byte) : Instr :=
  if addr = Offset.cmd then
    match decodeCommand data with
    | .ok i => i
    | .error _ => .wr addr data
  else .wr addr data

/-- The instruction of an `HT24` word (R91 to R93), or the name of the reason why the word is reserved (R98). -/
def decode (w : HtWord) : Except DecodeError Instr :=
  if htKind w = 0x0 then
    if htData w = 0x00 then .ok (.rd (htAddr w)) else .error .readWithData
  else if htKind w = 0x1 then .ok (decodeWrite (htAddr w) (htData w))
  else .error .reservedKind

/-- An `HT24` word from its three fields (R91). -/
def htWord (kind : BitVec 4) (addr : Addr) (data : Byte) : HtWord := kind ++ addr ++ data

/-- The `HT24` word of an instruction (R92, R93, R102, R103). -/
def encode : Instr → HtWord
  | .rd addr => htWord 0x0 addr 0x00
  | .wr addr data => htWord 0x1 addr data
  | .expand => htWord 0x1 Offset.cmd CommandCode.expand
  | .encryptPair => htWord 0x1 Offset.cmd CommandCode.encryptPair

/-- The `HT24` word that carries a `CMD8` byte: a command always travels inside a `WR` to `CMD` (R90). -/
def commandWord (c : Byte) : HtWord := htWord 0x1 Offset.cmd c

/-- The `HT24` word of a table word of `nbits` bits: a row of at most 8 bits is a `CMD8` byte, any other an `HT24`
word (R94, R91). -/
def tableWord (nbits w : Nat) : HtWord :=
  if nbits ≤ 8 then commandWord (BitVec.ofNat 8 w) else BitVec.ofNat 24 w

/-- The instruction the decoder reads from a table word: `CMD8` rows by the command map (R95), `HT24` rows by R91. -/
def decodeTableWord (nbits w : Nat) : Option Instr :=
  (if nbits ≤ 8 then decodeCommand (BitVec.ofNat 8 w) else decode (BitVec.ofNat 24 w)).toOption

end Sys2Proof
end

