-- ==== Sys2Proof/Machine/State.lean ====
section
/-! DEFINITION. The state of one AES-comp CORE and of the host beside it, as plain data, and the state after reset (10_state.md R20, R41; 70_reset_and_hazards.md R230). -/

namespace Sys2Proof.Machine

/-- A command of the core (R3, R95). -/
inductive Command where
  /-- `EXPAND`. -/
  | expand
  /-- `ENCRYPT_PAIR`. -/
  | encryptPair
  deriving DecidableEq, Repr

/-- The status field `STATUS.ST` (R44): four names for its four values. -/
inductive St where
  /-- 0: no command accepted or rejected since reset. -/
  | idle
  /-- 1: a command was accepted and has not completed. -/
  | busy
  /-- 2: the last command completed. -/
  | done
  /-- 3: the last command was rejected. -/
  | error
  deriving DecidableEq, Repr

/-- The three errors of the core (R200). -/
inductive ErrorKind where
  /-- `EXPAND` with `KEYLEN` not 16. -/
  | invalidKeyLength
  /-- `ENCRYPT_PAIR` with `BLKLEN` not 32. -/
  | invalidBlockLength
  /-- `ENCRYPT_PAIR` with `BLKLEN` 32 and `SCHEDLEN` not 176. -/
  | invalidScheduleLength
  deriving DecidableEq, Repr

/-- One item of the host's script (R101, R104, R108). -/
inductive HostItem where
  /-- An `HT24` word: one host transaction (R91). `joins` is true on every word but the first of `RDBLK`, `RDSCHED` and
  `RDKEY`: the byte it reads joins the result of the read that the first began (R107). -/
  | word (w : HtWord) (joins : Bool := false)
  /-- `WAIT`: `RD STATUS` until the byte read is not `BUSY` (R104). -/
  | wait
  /-- `EXPECT`: what the read before it must have returned, oldest byte first (R108). -/
  | expect (bytes : List Byte)
  deriving DecidableEq, Repr

/-- Why the machine stops with a fault: never. The spec gives no behaviour that traps and no stuck state
(93_implementation_defined.md part 1, last paragraph; R201), so this type has no constructor and no step can fault. -/
inductive Fault where
  deriving DecidableEq, Repr

/-- Why a step is refused. -/
inductive Refusal where
  /-- Raised by no meaning: it stands for an instruction without one (there is none). Safe. -/
  | notModelled (mnemonic : String)
  /-- Raised by `step` on a script word that is no transaction: it never reaches the core, "so the core has no
  behaviour for them" (R98). Safe: the machine stops where the spec gives nothing (DESIGN CHOICE, log entry 11). -/
  | reservedWord (w : HtWord) (why : DecodeError)
  deriving DecidableEq, Repr

/-- The whole state. The first ten fields are the core's (R20, R50; `CMD` stores nothing, R46; `W`, `i`, `V`, `r` have
no value between steps, R52, R53: DESIGN CHOICE (safe), log entry 3). `latencyLeft` and `draws` are the model's own. The rest is the host's side. -/
structure State where
  /-- `KEYBUF[0..15]` (R21). -/
  keybuf : Block
  /-- `BLK[0..31]` (R22). -/
  blk : Pair
  /-- `SCHED[0..175]` (R23). -/
  sched : Schedule
  /-- `KEYLEN` (R49). -/
  keylen : Byte
  /-- `BLKLEN` (R49). -/
  blklen : Byte
  /-- `SCHEDLEN` (R49). -/
  schedlen : Byte
  /-- `STATUS.ST` (R44). -/
  st : St
  /-- `ERR` (R48). -/
  err : Byte
  /-- `PEND` (R50): the command in flight. -/
  pend : Option Command
  /-- The model's own: the host moves that remain before the pending command completes (R245). DESIGN CHOICE (safe), log entry 2. -/
  latencyLeft : Nat
  /-- The model's own: how many free values have been drawn. DESIGN CHOICE (safe), log entry 4. -/
  draws : Nat
  /-- The reset input: a reset event comes before the next move (R231). DESIGN CHOICE (unsafe), log entry 7. -/
  resetIn : Bool
  /-- What the host has still to do (R101). DESIGN CHOICE (safe), log entry 5. -/
  script : List HostItem
  /-- The index of the next transaction of the script: one more for each transaction, the polls of one `WAIT` counted
  once, an `EXPECT` not at all (R41, R108). -/
  pos : Nat
  /-- The bytes the host's reads have returned, oldest first (R190). DESIGN CHOICE (safe), log entry 5. -/
  returned : List Byte
  /-- Where in `returned` the result of the last read begins: of a `RD`, a `WAIT`, a `RDBLK`, `RDSCHED` or `RDKEY`
  (R104, R107, R108). DESIGN CHOICE (safe), log entry 6. -/
  readFrom : Nat
  /-- Whether every `EXPECT` so far held (R108). DESIGN CHOICE (safe), log entry 6. -/
  expectsHeld : Bool
  deriving DecidableEq, Repr

/-- The bytes a reset with draw number `draw` leaves in a buffer of `n` bytes at offset `base` (R230, U1). -/
def unwrittenBuffer (n : Nat) (base : Addr) (draw : Nat) : Vector Byte n :=
  Vector.ofFn fun k => Config.unwritten draw (base.toNat + k.val)

/-- The machine right after reset (R230), with an empty script: the host issues nothing of itself (log entry 5). -/
def State.reset : State where
  keybuf := unwrittenBuffer 16 Offset.keybuf 0
  blk := unwrittenBuffer 32 Offset.blk 0
  sched := unwrittenBuffer 176 Offset.sched 0
  keylen := 0x00
  blklen := 0x00
  schedlen := 0x00
  st := .idle
  err := 0x00
  pend := none
  latencyLeft := 0
  draws := 1
  resetIn := false
  script := []
  pos := 0
  returned := []
  readFrom := 0
  expectsHeld := true

end Sys2Proof.Machine
end

