-- ==== Sys2Proof/Machine/KeySchedule.lean ====
section
/-! DEFINITION. The Key Scheduler: its micro-operations and the function Expand (41_key_expansion.md R140 to R149). -/

namespace Sys2Proof.Machine

/-- Byte `m` of a word, byte 0 the most significant (R63, R121). -/
def wordByte (w : Word) (m : Nat) : Byte := w.extractLsb' (24 - 8 * m) 8

/-- A word from four bytes, the most significant first (R63). -/
def wordOf (b0 b1 b2 b3 : Byte) : Word := b0 ++ b1 ++ b2 ++ b3

/-- Word `j` of a 16-byte string: the lowest offset is the most significant byte (R63). -/
def blockWord (key : Block) (j : Fin 4) : Word :=
  wordOf key[4 * j.val] key[4 * j.val + 1] key[4 * j.val + 2] key[4 * j.val + 3]

/-- `LoadKeyWords` (R140): `W[0..3]`. -/
def loadKeyWords (key : Block) : List Word := (List.finRange 4).map (blockWord key)

/-- `RotWord` (R141). -/
def rotWord (w : Word) : Word := w.extractLsb' 0 24 ++ w.extractLsb' 24 8

/-- `SubWord` (R142). -/
def subWord (w : Word) : Word :=
  wordOf (sbox (wordByte w 0)) (sbox (wordByte w 1)) (sbox (wordByte w 2)) (sbox (wordByte w 3))

/-- `RconXor` (R143): only the most significant byte changes. -/
def rconXor (w : Word) (j : Nat) : Word := (w.extractLsb' 24 8 ^^^ rcon j) ++ w.extractLsb' 0 24

/-- `W[i]` from the words before it (R144), `i` = 4 to 43. `W` holds the words up to `i - 1`, so no default is reached. -/
def nextWord (W : List Word) (i : Nat) : Word :=
  let prev := W.getD (i - 1) 0
  let t := if i % 4 = 0 then rconXor (subWord (rotWord prev)) (i / 4) else prev
  W.getD (i - 4) 0 ^^^ t

/-- The words `W[0 .. 3+t]`: the key's four and `t` turns of `NextWord` at `i` = 4, 5, … (R144, R146). -/
def keyWords (key : Block) : Nat → List Word
  | 0 => loadKeyWords key
  | t + 1 => keyWords key t ++ [nextWord (keyWords key t) (4 + t)]

/-- `StoreSchedule` (R145): each word most significant byte first. -/
def storeSchedule (W : List Word) : Schedule :=
  Vector.ofFn fun n => wordByte (W.getD (n.val / 4) 0) (n.val % 4)

/-- `Expand` (R146): `i` runs from 4 to 43, forty turns. -/
def expand (key : Block) : Schedule := storeSchedule (keyWords key 40)

/-- Round key `k` of a schedule (R23, R65). -/
def roundKey (sched : Schedule) (k : Fin 11) : Block :=
  Vector.ofFn fun n => sched[16 * k.val + n.val]

/-- Round key `j` from round key `j - 1`, `j` = 1 to 10: the round-key form of the schedule (R149). -/
def nextRoundKey (K : Block) (j : Nat) : Block :=
  let b0 := blockWord K 0 ^^^ rconXor (subWord (rotWord (blockWord K 3))) j
  let b1 := blockWord K 1 ^^^ b0
  let b2 := blockWord K 2 ^^^ b1
  let b3 := blockWord K 3 ^^^ b2
  Vector.ofFn fun n => wordByte ([b0, b1, b2, b3].getD (n.val / 4) 0) (n.val % 4)

end Sys2Proof.Machine
end

