-- ==== Sys2Proof/Machine/Cipher.lean ====
section
/-! DEFINITION. The Dual-Block Cipher Engine: the micro-operations on one State, the sequence EncryptBlock, EncryptPair, and the same sequence on the pair register V (42_round_pipeline.md R160 to R172). -/

namespace Sys2Proof.Machine

/-- `AddRoundKey` (R160). -/
def addRoundKey (S K : Block) : Block := Vector.ofFn fun n => S[n] ^^^ K[n]

/-- `SubBytes` (R161). -/
def subBytes (S : Block) : Block := Vector.ofFn fun n => sbox S[n]

/-- `ShiftRows` (R162): row `n mod 4`, column `n div 4`, taken from column `(col + row) mod 4`. -/
def shiftRows (S : Block) : Block :=
  Vector.ofFn fun n =>
    S[n.val % 4 + 4 * ((n.val / 4 + n.val % 4) % 4)]

/-- Entry `row` of the column that MixColumns makes of `(a0, a1, a2, a3)` (R120, R163). -/
def mixEntry (a0 a1 a2 a3 : Byte) : Nat → Byte
  | 0 => mul2 a0 ^^^ mul3 a1 ^^^ mul1 a2 ^^^ mul1 a3
  | 1 => mul1 a0 ^^^ mul2 a1 ^^^ mul3 a2 ^^^ mul1 a3
  | 2 => mul1 a0 ^^^ mul1 a1 ^^^ mul2 a2 ^^^ mul3 a3
  | _ => mul3 a0 ^^^ mul1 a1 ^^^ mul1 a2 ^^^ mul2 a3

/-- `MixColumns` (R163): each column by the matrix of R120. -/
def mixColumns (S : Block) : Block :=
  Vector.ofFn fun n =>
    mixEntry S[4 * (n.val / 4)] S[4 * (n.val / 4) + 1] S[4 * (n.val / 4) + 2] S[4 * (n.val / 4) + 3] (n.val % 4)

/-- One full round with its round key (R165). -/
def fullRound (S K : Block) : Block := addRoundKey (mixColumns (shiftRows (subBytes S))) K

/-- The final round: no MixColumns (R165). -/
def finalRound (S K : Block) : Block := addRoundKey (shiftRows (subBytes S)) K

/-- The round indices 1 to 9 of the full rounds (R40, R165). -/
def fullRounds : List (Fin 11) := [1, 2, 3, 4, 5, 6, 7, 8, 9]

/-- `EncryptBlock` (R165). -/
def encryptBlock (P : Block) (sched : Schedule) : Block :=
  finalRound
    (fullRounds.foldl (fun S r => fullRound S (roundKey sched r)) (addRoundKey P (roundKey sched 0)))
    (roundKey sched 10)

/-- Lane A of a pair: bytes 0 to 15 (R66). -/
def laneA (V : Pair) : Block := Vector.ofFn fun n => V[n.val]

/-- Lane B of a pair: bytes 16 to 31 (R66). -/
def laneB (V : Pair) : Block := Vector.ofFn fun n => V[16 + n.val]

/-- A pair from its lanes, lane A first (R66). -/
def joinLanes (A B : Block) : Pair :=
  Vector.ofFn fun n => if h : n.val < 16 then A[n.val] else B[n.val - 16]

/-- `EncryptPair` (R172): each lane by itself, with the one schedule. -/
def encryptPair (V : Pair) (sched : Schedule) : Pair :=
  joinLanes (encryptBlock (laneA V) sched) (encryptBlock (laneB V) sched)

/-- `AddRoundKey` on the pair register: the one round key on both lanes (R164). -/
def addRoundKeyV (V : Pair) (K : Block) : Pair := Vector.ofFn fun n => V[n] ^^^ K[n.val % 16]

/-- `SubBytes` on the pair register: thirty-two look-ups (R109, R164). -/
def subBytesV (V : Pair) : Pair := Vector.ofFn fun n => sbox V[n]

/-- `ShiftRows` on the pair register: within each lane's own four columns (R164). -/
def shiftRowsV (V : Pair) : Pair :=
  Vector.ofFn fun n =>
    V[16 * (n.val / 16) + (n.val % 4 + 4 * ((n.val % 16 / 4 + n.val % 4) % 4))]

/-- `MixColumns` on the pair register: eight independent columns (R164). -/
def mixColumnsV (V : Pair) : Pair :=
  Vector.ofFn fun n =>
    mixEntry V[4 * (n.val / 4)] V[4 * (n.val / 4) + 1] V[4 * (n.val / 4) + 2] V[4 * (n.val / 4) + 3] (n.val % 4)

/-- The sequence of R165 on the pair register, both lanes in each step (R164, R172). -/
def encryptPairV (V : Pair) (sched : Schedule) : Pair :=
  let V0 := addRoundKeyV V (roundKey sched 0)
  let V9 := fullRounds.foldl
    (fun X r => addRoundKeyV (mixColumnsV (shiftRowsV (subBytesV X))) (roundKey sched r)) V0
  addRoundKeyV (shiftRowsV (subBytesV V9)) (roundKey sched 10)

end Sys2Proof.Machine
end

