-- ==== Sys2Proof/Machine/Operands.lean ====
section
/-! DEFINITION. The one operand form: an absolute 12-bit offset, and the cell of the register space it names (20_memory.md R60, R71; 30_encoding.md R96). -/

namespace Sys2Proof.Machine

/-- The cells of the register space (R71). -/
inductive Cell where
  | cmd
  | status
  | err
  | keylen
  | blklen
  | schedlen
  | keybuf (n : Fin 16)
  | blk (n : Fin 32)
  | sched (n : Fin 176)
  /-- Reads as zero, writes ignored (R72). -/
  | reserved
  deriving DecidableEq, Repr

/-- The cell an offset names (R71). Total: every offset outside the map is reserved (R72; DESIGN CHOICE (unsafe), log entry 9). -/
def cellOf (a : Addr) : Cell :=
  if a = Offset.cmd then .cmd
  else if a = Offset.status then .status
  else if a = Offset.err then .err
  else if a = Offset.keylen then .keylen
  else if a = Offset.blklen then .blklen
  else if a = Offset.schedlen then .schedlen
  else if h : 0x010 ≤ a.toNat ∧ a.toNat ≤ 0x01F then .keybuf ⟨a.toNat - 0x010, by omega⟩
  else if h : 0x020 ≤ a.toNat ∧ a.toNat ≤ 0x03F then .blk ⟨a.toNat - 0x020, by omega⟩
  else if h : 0x100 ≤ a.toNat ∧ a.toNat ≤ 0x1AF then .sched ⟨a.toNat - 0x100, by omega⟩
  else .reserved

/-- The effective address of a transaction in the platform's map: `BASE + addr` (R190). Nothing in the core depends on
it (R10); no index, no modification, no extension of the offset (R96). -/
def effectiveAddress (a : Addr) : Nat := Config.base + a.toNat

end Sys2Proof.Machine
end

