-- ==== Sys2Proof/Machine/Flags.lean ====
section
/-! DEFINITION. The status field, the error codes and the length checks that set them (10_state.md R44, R48; 60_exceptions.md R200, R207). The hardware has no other flag (R15, R44). -/

namespace Sys2Proof.Machine

/-- The two bits of `STATUS.ST` (R44). -/
def St.code : St → BitVec 2
  | .idle => 0
  | .busy => 1
  | .done => 2
  | .error => 3

/-- The byte `RD STATUS` returns: bits 7:2 always read as 0 (R44, R190). -/
def St.statusByte (st : St) : Byte := st.code.setWidth 8

/-- The code an error leaves in `ERR` (R48, R200). -/
def ErrorKind.code : ErrorKind → Byte
  | .invalidKeyLength => 0x01
  | .invalidBlockLength => 0x02
  | .invalidScheduleLength => 0x03

/-- The check of `EXPAND` (R147): `BLKLEN` and `SCHEDLEN` are not looked at. -/
def expandCheck (s : State) : Option ErrorKind :=
  if s.keylen ≠ Config.keyBytes then some .invalidKeyLength else none

/-- The checks of `ENCRYPT_PAIR`, the block length first (R173, R207): `KEYLEN` is not looked at.
DESIGN CHOICE (unsafe), log entry 10. -/
def encryptPairCheck (s : State) : Option ErrorKind :=
  if s.blklen ≠ Config.pairBytes then some .invalidBlockLength
  else if s.schedlen ≠ Config.schedBytes then some .invalidScheduleLength
  else none

end Sys2Proof.Machine
end

