-- ==== Sys2Proof/Machine/Ops.lean ====
section
/-! DEFINITION. The named operations on the state: every update the meanings and the step make. Accepting and rejecting a command stand here once (60_exceptions.md R203, R205); there is no return from an error (R208). -/

namespace Sys2Proof.Machine

/-- One free value drawn (DESIGN CHOICE, log entry 4). -/
def State.draw (s : State) : State := { s with draws := s.draws + 1 }

/-- The byte a read returned goes to the host (R190). -/
def State.pushReturned (s : State) (b : Byte) : State := { s with returned := s.returned ++ [b] }

/-- `KEYLEN <- d` (R49, R191). -/
def State.setKeylen (s : State) (d : Byte) : State := { s with keylen := d }

/-- `BLKLEN <- d` (R49, R191). -/
def State.setBlklen (s : State) (d : Byte) : State := { s with blklen := d }

/-- `SCHEDLEN <- d` (R49, R191). -/
def State.setSchedlen (s : State) (d : Byte) : State := { s with schedlen := d }

/-- `KEYBUF[n] <- d` (R21, R191). -/
def State.setKeyByte (s : State) (n : Fin 16) (d : Byte) : State :=
  { s with keybuf := s.keybuf.set n.val d }

/-- `BLK[n] <- d` (R22, R191). -/
def State.setBlkByte (s : State) (n : Fin 32) (d : Byte) : State :=
  { s with blk := s.blk.set n.val d }

/-- `SCHED[n] <- d` (R23, R191). -/
def State.setSchedByte (s : State) (n : Fin 176) (d : Byte) : State :=
  { s with sched := s.sched.set n.val d }

/-- The latency of an accepted command, from the draw it takes (R245, U5). -/
def latency (c : Command) (draw : Nat) : Nat :=
  match c with
  | .expand => Config.latExpand draw
  | .encryptPair => Config.latEncrypt draw

/-- Accept (R203): `ST <- BUSY`, `ERR <- 0x00`, `PEND <- c`. The model also draws the command's latency here
(DESIGN CHOICE, log entry 2). -/
def State.accept (s : State) (c : Command) : State :=
  { s with st := .busy, err := 0x00, pend := some c,
           latencyLeft := latency c s.draws, draws := s.draws + 1 }

/-- Reject, `raise e` (R205): `ST <- ERROR`, `ERR <- code(e)`, nothing else. The host recovers by issuing the command
again (R208). -/
def State.raise (s : State) (e : ErrorKind) : State := { s with st := .error, err := e.code }

/-- The accept step of a command whose length check has answered (92_eei_decisions.md D8): reject or accept. -/
def State.acceptOrRaise (s : State) (c : Command) (check : Option ErrorKind) : State :=
  match check with
  | some e => s.raise e
  | none => s.accept c

/-- Every write is ignored while `ST = BUSY` (R191, R240). -/
def State.unlessBusy (s : State) (f : State → State) : State :=
  if s.st = .busy then s else f s

/-- The completion of `EXPAND` writes its whole result in one step (R69, R148). -/
def State.finishExpand (s : State) (result : Schedule) : State :=
  { s with sched := result, schedlen := Config.schedBytes, pend := none, st := .done }

/-- The completion of `ENCRYPT_PAIR` writes its whole result in one step, in place (R69, R174). -/
def State.finishEncryptPair (s : State) (result : Pair) : State :=
  { s with blk := result, pend := none, st := .done }

/-- A reset event (R231, R232): the core takes the values of R230, whatever it was doing, and a pending command is
abandoned. The buffers are unspecified again, by a draw of their own (U1, U7). The host keeps its script (R231). -/
def State.resetEvent (s : State) : State :=
  { s with
    keybuf := unwrittenBuffer 16 Offset.keybuf s.draws
    blk := unwrittenBuffer 32 Offset.blk s.draws
    sched := unwrittenBuffer 176 Offset.sched s.draws
    keylen := 0x00, blklen := 0x00, schedlen := 0x00
    st := .idle, err := 0x00, pend := none
    latencyLeft := 0, draws := s.draws + 1, resetIn := false }

/-- Whether an instruction is a `RD`. -/
def isRead : Instr → Bool
  | .rd _ => true
  | .wr _ _ | .expand | .encryptPair => false

/-- Whether running the item begins a new read, whose result the next byte starts: a `RD` that joins no other, and every
poll of `WAIT`, since "the last byte read is `WAIT`'s result" (R104, R107). -/
def HostItem.beginsRead : HostItem → Bool
  | .word w joins =>
    match decode w with
    | .ok i => isRead i && !joins
    | .error _ => false
  | .wait => true
  | .expect _ => false

/-- Where the result of the last read begins once the next item runs. -/
def State.nextReadFrom (s : State) : Nat :=
  match s.script with
  | [] => s.readFrom
  | item :: _ => if item.beginsRead then s.returned.length else s.readFrom

/-- The result of the last read: one byte of a `RD` or a `WAIT`, all bytes of a `RDBLK`, `RDSCHED` or `RDKEY`
(R104, R107). -/
def State.readResult (s : State) : List Byte := s.returned.drop s.readFrom

/-- The host goes on to its next script item with a transaction (R41). A pending command comes one move nearer to its
completion (DESIGN CHOICE, log entry 2). -/
def State.passItem (s : State) : State :=
  { s with script := s.script.tail, pos := s.pos + 1, latencyLeft := s.latencyLeft - 1, readFrom := s.nextReadFrom }

/-- One poll of `WAIT` that sees `BUSY`: the host stays at the item (R41, R104). -/
def State.stayAtItem (s : State) : State := { s with latencyLeft := s.latencyLeft - 1, readFrom := s.nextReadFrom }

/-- The host goes past an `EXPECT`, which is no transaction and leaves the position as it is (R41, R108). -/
def State.passExpect (s : State) : State := { s with script := s.script.tail, latencyLeft := s.latencyLeft - 1 }

/-- `EXPECT` (R108): no transaction; the host records whether the read before it returned exactly these bytes (DESIGN
CHOICE, log entry 6). -/
def State.checkExpect (s : State) (bytes : List Byte) : State :=
  { s with expectsHeld := s.expectsHeld && s.readResult == bytes }

end Sys2Proof.Machine
end

