-- ==== Sys2Proof/Machine/Commands.lean ====
section
/-! DEFINITION. The two commands: their accept steps, their completion steps and their issue (41_key_expansion.md R147, R148; 42_round_pipeline.md R173, R174; 43_host_transactions.md R192). -/

namespace Sys2Proof.Machine

/-- The accept step of `EXPAND` (R147). -/
def expandAccept (s : State) : State := s.acceptOrRaise .expand (expandCheck s)

/-- The completion step of `EXPAND` (R148). -/
def expandComplete (s : State) : State := s.finishExpand (expand s.keybuf)

/-- The accept step of `ENCRYPT_PAIR` (R173). -/
def encryptPairAccept (s : State) : State := s.acceptOrRaise .encryptPair (encryptPairCheck s)

/-- The completion step of `ENCRYPT_PAIR` (R174). -/
def encryptPairComplete (s : State) : State := s.finishEncryptPair (encryptPair s.blk s.sched)

/-- The completion step of the pending command. -/
def complete (c : Command) (s : State) : State :=
  match c with
  | .expand => expandComplete s
  | .encryptPair => encryptPairComplete s

/-- Command issue (R192): a reserved code changes nothing (R97; DESIGN CHOICE (unsafe), log entry 9). -/
def issueCommand (c : Byte) (s : State) : State :=
  if c = CommandCode.expand then expandAccept s
  else if c = CommandCode.encryptPair then encryptPairAccept s
  else s

/-- `EXPAND` (R102, R147): the `WR` of its code to `CMD`, ignored while `BUSY` (R240). -/
def execExpand (s : State) : Host.Outcome State Fault Refusal := .next (s.unlessBusy expandAccept)

/-- `ENCRYPT_PAIR` (R103, R173): the `WR` of its code to `CMD`, ignored while `BUSY` (R240). -/
def execEncryptPair (s : State) : Host.Outcome State Fault Refusal := .next (s.unlessBusy encryptPairAccept)

end Sys2Proof.Machine
end

