-- ==== Sys2Proof/Machine/Transactions.lean ====
section
/-! DEFINITION. The host transactions RD and WR (43_host_transactions.md R190, R191). -/

namespace Sys2Proof.Machine

/-- The byte of a buffer as a read returns it: unspecified, and drawn anew, while `ST = BUSY` (R190, R242). -/
def bufferByte (s : State) (stored : Byte) : Byte :=
  if s.st = .busy then Config.busyRead s.draws else stored

/-- The byte a read of a cell returns, `RegRead` of R190. -/
def readCell (s : State) : Cell → Byte
  | .cmd => 0x00
  | .status => s.st.statusByte
  | .err => s.err
  | .keylen => s.keylen
  | .blklen => s.blklen
  | .schedlen => s.schedlen
  | .keybuf n => bufferByte s s.keybuf[n]
  | .blk n => bufferByte s s.blk[n]
  | .sched n => bufferByte s s.sched[n]
  | .reserved => 0x00

/-- Whether a read of the cell takes a free value (R242). -/
def readDraws (s : State) : Cell → Bool
  | .keybuf _ | .blk _ | .sched _ => s.st == .busy
  | .cmd | .status | .err | .keylen | .blklen | .schedlen | .reserved => false

/-- `RD addr` (R190): the byte goes to the host, and no state of the core changes (R70). -/
def execRd (addr : Addr) (s : State) : Host.Outcome State Fault Refusal :=
  .next ((if readDraws s (cellOf addr) then s.draw else s).pushReturned (readCell s (cellOf addr)))

/-- The effect of a write on a cell when the core is not `BUSY`, `RegWrite` of R191. -/
def writeCell (data : Byte) (s : State) : Cell → State
  | .cmd => issueCommand data s
  | .status => s
  | .err => s
  | .keylen => s.setKeylen data
  | .blklen => s.setBlklen data
  | .schedlen => s.setSchedlen data
  | .keybuf n => s.setKeyByte n data
  | .blk n => s.setBlkByte n data
  | .sched n => s.setSchedByte n data
  | .reserved => s

/-- `WR addr, data` (R191): ignored while `BUSY`. -/
def execWr (addr : Addr) (data : Byte) (s : State) : Host.Outcome State Fault Refusal :=
  .next (s.unlessBusy fun s => writeCell data s (cellOf addr))

end Sys2Proof.Machine
end

