-- ==== Sys2Proof/Machine/Fetch.lean ====
section
/-! DEFINITION. Which move comes next: the reset input, the completion of the pending command, or the host's next script item (00_scope.md R16; 20_memory.md R75). -/

namespace Sys2Proof.Machine

/-- The next move of the machine. -/
inductive Move where
  /-- The reset event (R231). -/
  | reset
  /-- The core completes its pending command (R148, R174). -/
  | complete (c : Command)
  /-- The host issues a transaction (R16). -/
  | transact (i : Instr)
  /-- The host polls `STATUS` for `WAIT` (R104). -/
  | poll
  /-- The host states an expectation (R108). -/
  | expect (bytes : List Byte)
  /-- The host's script is over (R246). -/
  | over
  /-- The script holds a word that is no transaction (R98). -/
  | reserved (w : HtWord) (why : DecodeError)
  deriving DecidableEq, Repr

/-- The host's move: its next script item, decoded. -/
def hostMove (s : State) : Move :=
  match s.script with
  | [] => .over
  | .word w _ :: _ =>
    match decode w with
    | .ok i => .transact i
    | .error e => .reserved w e
  | .wait :: _ => .poll
  | .expect bytes :: _ => .expect bytes

/-- The next move. The completion falls between two host moves, when the latency drawn at acceptance is used up; once
the script is over it is the one step still owed (R75, R245, R246). -/
def nextMove (s : State) : Move :=
  if s.resetIn then .reset
  else
    match s.pend with
    | none => hostMove s
    | some c => if s.latencyLeft = 0 ∨ s.script = [] then .complete c else hostMove s

/-- Where the host stands after a poll of `WAIT`: past it, unless the poll sees `BUSY` (R104). -/
def State.passPoll (s : State) : State := if s.st = .busy then s.stayAtItem else s.passItem

/-- `s` with a word as the host's next script item, and the host to move: no reset event comes first, and a pending
command does not complete first. -/
def State.withScriptWord (s : State) (w : HtWord) : State :=
  { s with script := .word w :: s.script, resetIn := false,
           latencyLeft := if s.pend = none then s.latencyLeft else max 1 s.latencyLeft }

end Sys2Proof.Machine
end

