-- ==== Sys2Proof/Machine/Step.lean ====
section
/-! DEFINITION. One step of the machine: one move of the host, of the core, or of the reset input (00_scope.md R16). -/

namespace Sys2Proof.Machine

/-- One step. When the script is over and no command is pending, nothing moves: the core stays as it is, ready for more
transactions (R246; DESIGN CHOICE (safe), log entry 17). -/
def step (s : State) : Host.Outcome State Fault Refusal :=
  match nextMove s with
  | .reset => .next s.resetEvent
  | .complete c => .next (complete c s)
  | .transact i => exec i s.passItem
  | .poll => exec (.rd Offset.status) s.passPoll
  | .expect bytes => .next (s.passExpect.checkExpect bytes)
  | .over => .next s
  | .reserved w e => .refused (.reservedWord w e)

/-- `s` with the instruction of a table word as the host's next transaction (a `CMD8` byte inside its `WR` to `CMD`). -/
def State.withFetchWord (s : State) (nbits w : Nat) : State := s.withScriptWord (tableWord nbits w)

end Sys2Proof.Machine
end

