-- ==== Sys2Proof/Machine/Script.lean ====
section
/-! DEFINITION. The lines of a host script and the transactions they expand to (30_encoding.md R101 to R108). -/

namespace Sys2Proof.Machine

/-- One line of a script: a base transaction or a pseudo-instruction (R101). -/
inductive ScriptLine where
  /-- `RD addr` (R101). -/
  | rd (addr : Addr)
  /-- `WR addr, data` (R101). -/
  | wr (addr : Addr) (data : Byte)
  /-- `EXPAND` (R102). -/
  | expand
  /-- `ENCRYPT_PAIR` (R103). -/
  | encryptPair
  /-- `WAIT` (R104). -/
  | wait
  /-- `LDKEY b0 b1 …` (R105). -/
  | ldkey (bytes : List Byte)
  /-- `LDBLK b0 b1 …` (R106). -/
  | ldblk (bytes : List Byte)
  /-- `LDSCHED b0 b1 …` (R106). -/
  | ldsched (bytes : List Byte)
  /-- `RDBLK` (R107). -/
  | rdblk
  /-- `RDSCHED` (R107). -/
  | rdsched
  /-- `RDKEY` (R107). -/
  | rdkey
  /-- `EXPECT value` (R108). -/
  | expect (bytes : List Byte)
  deriving DecidableEq, Repr

/-- The byte string of a load has at most 255 bytes, so that its length fits the length register: R105 says so of
`LDKEY`, and for `LDBLK` and `LDSCHED`, where R106 gives no bound, it is DESIGN CHOICE (unsafe), log entry 18. An `EXPECT`
has a value (R108). -/
def ScriptLine.wellFormed : ScriptLine → Bool
  | .ldkey bytes | .ldblk bytes | .ldsched bytes => bytes.length ≤ 255
  | .rd _ | .wr _ _ | .expand | .encryptPair | .wait | .rdblk | .rdsched | .rdkey => true
  | .expect bytes => !bytes.isEmpty

/-- The script item of one host transaction. -/
def transaction (i : Instr) : HostItem := .word (encode i)

/-- The writes of a load: byte `m` at `base + m` for as many bytes as the buffer has room, in increasing `m`, then the
declared length, which counts all of them (R105, R106). Of a load that is not well formed, with more than 255 bytes, the
length goes out modulo 256: DESIGN CHOICE (unsafe), log entry 18. -/
def loadItems (base lengthRegister : Addr) (room : Nat) (bytes : List Byte) : List HostItem :=
  (bytes.take room).zipIdx.map (fun bm => transaction (.wr (base + BitVec.ofNat 12 bm.2) bm.1))
    ++ [transaction (.wr lengthRegister (BitVec.ofNat 8 bytes.length))]

/-- The reads of `n` bytes from `base` on, in increasing order; all but the first join its result (R107). -/
def readItems (base : Addr) (n : Nat) : List HostItem :=
  (List.range n).map fun m => .word (encode (.rd (base + BitVec.ofNat 12 m))) (m != 0)

/-- What a line expands to (R101 to R108). -/
def ScriptLine.items : ScriptLine → List HostItem
  | .rd addr => [transaction (.rd addr)]
  | .wr addr data => [transaction (.wr addr data)]
  | .expand => [transaction (.wr Offset.cmd CommandCode.expand)]
  | .encryptPair => [transaction (.wr Offset.cmd CommandCode.encryptPair)]
  | .wait => [.wait]
  | .ldkey bytes => loadItems Offset.keybuf Offset.keylen 16 bytes
  | .ldblk bytes => loadItems Offset.blk Offset.blklen 32 bytes
  | .ldsched bytes => loadItems Offset.sched Offset.schedlen 176 bytes
  | .rdblk => readItems Offset.blk 32
  | .rdsched => readItems Offset.sched 176
  | .rdkey => readItems Offset.keybuf 16
  | .expect bytes => [.expect bytes]

/-- What a script expands to, top to bottom (R101). -/
def scriptItems (lines : List ScriptLine) : List HostItem := lines.flatMap ScriptLine.items

/-- The machine `s` with a script for its host to run, from its first item. -/
def State.withScript (s : State) (lines : List ScriptLine) : State :=
  { s with script := scriptItems lines, pos := 0 }

end Sys2Proof.Machine
end

