-- ==== Sys2Proof/Safety.lean ====
section
/-! DEFINITION. What counts as a sound state and a safe run, in the terms the statements use. -/

namespace Sys2Proof.Machine

/-- The reserved offsets (R72): 0x003, 0x007 to 0x00F, 0x040 to 0x0FF, 0x1B0 to 0xFFF. -/
abbrev ReservedOffset (a : Addr) : Prop :=
  a.toNat = 0x003 ∨ (0x007 ≤ a.toNat ∧ a.toNat ≤ 0x00F) ∨ (0x040 ≤ a.toNat ∧ a.toNat ≤ 0x0FF) ∨ 0x1B0 ≤ a.toNat

/-- The offsets of the three operand buffers (R71). -/
abbrev BufferOffset (a : Addr) : Prop :=
  (0x010 ≤ a.toNat ∧ a.toNat ≤ 0x03F) ∨ (0x100 ≤ a.toNat ∧ a.toNat ≤ 0x1AF)

/-- The invariant of the core. `ST = BUSY` if and only if a command is pending (R44); `ERR != 0` if and only if
`ST = ERROR` (R48); `ERR` is one of its four values (R48); and a pending command still has the lengths it was accepted
with, because writes are ignored while `BUSY` (R147, R173, R240). -/
abbrev State.Inv (s : State) : Prop :=
  (s.st = .busy ↔ s.pend ≠ none) ∧
  (s.err ≠ 0x00 ↔ s.st = .error) ∧
  s.err.toNat ≤ 3 ∧
  (s.pend = some .expand → s.keylen = 16) ∧
  (s.pend = some .encryptPair → s.blklen = 32 ∧ s.schedlen = 176)

/-- A command is in flight and no reset event is due. -/
abbrev State.Running (s : State) (c : Command) : Prop :=
  s.st = .busy ∧ s.pend = some c ∧ s.resetIn = false

/-- The core's operands and lengths are the same in two states (R26). -/
abbrev State.SameOperands (s t : State) : Prop :=
  t.keybuf = s.keybuf ∧ t.blk = s.blk ∧ t.sched = s.sched ∧
  t.keylen = s.keylen ∧ t.blklen = s.blklen ∧ t.schedlen = s.schedlen

/-- Every register, buffer and hidden element of the core is the same in two states (R20): the components of the
hardware, without the host's side and the model's own fields. -/
abbrev State.SameCore (s t : State) : Prop :=
  s.SameOperands t ∧ t.st = s.st ∧ t.err = s.err ∧ t.pend = s.pend

/-- The schedule is the one of the key: D00's `schedule[0] == Key`, and each later round key made from the one before it
and its round constant alone (R24, R149). -/
abbrev State.ScheduleOfKey (s : State) : Prop :=
  roundKey s.sched 0 = s.keybuf ∧
  ∀ k : Fin 10, roundKey s.sched k.succ = nextRoundKey (roundKey s.sched k.castSucc) (k.val + 1)

/-- Word `i` of a schedule: bytes `4i` to `4i+3`, the first the most significant (R63, R145). -/
def scheduleWord (sched : Schedule) (i : Fin 44) : Word :=
  wordOf sched[4 * i.val] sched[4 * i.val + 1] sched[4 * i.val + 2] sched[4 * i.val + 3]

/-- `k` steps, to the first that stops. -/
def run : Nat → State → Host.Outcome State Fault Refusal
  | 0, s => .next s
  | k + 1, s =>
    match step s with
    | .next t => run k t
    | .fault r => .fault r
    | .refused r => .refused r

end Sys2Proof.Machine
end

