-- ==== Sys2Proof/Certificates/Slice0/Obligations.lean ====
section
/-! DEFINITION. The statements for the provers, each with the rule or the section of spec/ it formalises. -/

open Sys2Proof Sys2Proof.Machine

/-! Encodings -/

/-- 30_encoding.md R91, R92, R93, R95: decoding the word of a well-formed instruction gives it back, every operand at
every value. -/
def Obligations.DecodeAfterEncode : Prop :=
  ∀ i : Instr, i.wellFormed = true → decode (encode i) = .ok i

/-- 30_encoding.md section 1: a word that decodes is the word of the instruction it decodes to, and that instruction is
well formed: no two words decode alike. -/
def Obligations.EncodeAfterDecode : Prop :=
  ∀ (w : HtWord) (i : Instr), decode w = .ok i → i.wellFormed = true ∧ encode i = w

/-- 30_encoding.md section 4 (R98), 20_memory.md section 4 (R72). Reserved words are rejected and never reach the core;
every other word is a transaction; the words with a reserved address among them read 0x00 and write nothing, in every
state. That the step refuses a reserved word, as `reservedWord`, is the model's choice (DESIGN CHOICE, log entry 11), and
that reserved addresses have the decided behaviour is log entry 9. -/
def Obligations.ReservedWordsAndReservedAddresses : Prop :=
  (∀ w : HtWord, (2 ≤ (htKind w).toNat ∨ (htKind w = 0x0 ∧ htData w ≠ 0x00)) →
    ∃ e, decode w = .error e ∧ ∀ s : State, step (s.withScriptWord w) = .refused (.reservedWord w e)) ∧
  (∀ w : HtWord, ((htKind w = 0x0 ∧ htData w = 0x00) ∨ htKind w = 0x1) → ∃ i, decode w = .ok i) ∧
  (∀ (a : Addr) (d : Byte) (s : State), ReservedOffset a →
    decode (htWord 0x0 a 0x00) = .ok (.rd a) ∧
    decode (htWord 0x1 a d) = .ok (.wr a d) ∧
    exec (.rd a) s = .next { s with returned := s.returned ++ [0x00] } ∧
    exec (.wr a d) s = .next s)

/-- 30_encoding.md sections 1 and 2: words the spec writes out. -/
def Obligations.WordsTheSpecWritesOut : Prop :=
  decode 0x000100 = .ok (.rd 0x001) ∧
  decode 0x10102B = .ok (.wr 0x010 0x2B) ∧
  decode 0x100001 = .ok .expand ∧
  decode 0x100002 = .ok .encryptPair ∧
  decode 0x11AFC5 = .ok (.wr 0x1AF 0xC5) ∧
  decode 0x000101 = .error .readWithData ∧
  decode 0x200000 = .error .reservedKind ∧
  decodeTableWord 8 0x01 = some .expand ∧
  decodeTableWord 8 0x02 = some .encryptPair

/-- 30_encoding.md section 2: the command map is complete. -/
def Obligations.CommandMapIsComplete : Prop :=
  ∀ c : Byte,
    (decodeCommand c = .ok .expand ↔ c = 0x01) ∧
    (decodeCommand c = .ok .encryptPair ↔ c = 0x02) ∧
    (decodeCommand c = .error .reservedCommandCode ↔ (c ≠ 0x01 ∧ c ≠ 0x02))

/-- R102, R103: each command's line is the one `WR` of its code to `CMD`, and the instruction does what that `WR`
does, in every state. -/
def Obligations.CommandsAreWritesToCmd : Prop :=
  ScriptLine.expand.items = [.word 0x100001] ∧
  ScriptLine.encryptPair.items = [.word 0x100002] ∧
  ∀ s : State,
    exec (.wr 0x000 0x01) s = exec .expand s ∧
    exec (.wr 0x000 0x02) s = exec .encryptPair s

/-! The step -/

/-- 00_scope.md section 7, 10_state.md section 3: when no reset event and no completion comes first, the host's next
word is decoded and run, one item further in the script. Around `exec` the step adds the script, its position, and the
countdown of log entry 2, and where the result of a read that this word begins starts (log entry 6). -/
def Obligations.StepRunsTheDecodedTransaction : Prop :=
  ∀ (s : State) (w : HtWord) (joins : Bool) (rest : List HostItem) (i : Instr),
    s.resetIn = false → (s.pend = none ∨ s.latencyLeft ≠ 0) →
    s.script = .word w joins :: rest → decode w = .ok i →
    step s = exec i
      { s with script := rest, pos := s.pos + 1, latencyLeft := s.latencyLeft - 1,
               readFrom := match i, joins with
                 | .rd _, false => s.returned.length
                 | _, _ => s.readFrom }

/-- 00_scope.md section 7 (R16), 30_encoding.md section 6 (R101): the word of any well-formed instruction, placed as the
host's next, is the very next thing the machine runs; so is a command byte, as the word that carries it. What
`withFetchWord` does (it places the word, clears the reset input and lets a pending command wait one more move) is the
model's choice: DESIGN CHOICE, log entry 5; that a command byte goes as its word is log entry 8. -/
def Obligations.PlacedInstructionRunsNext : Prop :=
  (∀ (s : State) (i : Instr), i.wellFormed = true →
    step (s.withFetchWord 24 (encode i).toNat) = exec i (s.withScriptWord (encode i)).passItem) ∧
  (∀ (s : State) (c : Byte) (i : Instr), decodeCommand c = .ok i →
    step (s.withFetchWord 8 c.toNat) = exec i (s.withScriptWord (encode i)).passItem)

/-- 43_host_transactions.md, whose rules R190 to R192 give every transaction its effect in every state: every instruction
answers a next state. -/
def Obligations.EveryInstructionAnswers : Prop :=
  ∀ (i : Instr) (s : State), ∃ t, exec i s = .next t

/-- 93_implementation_defined.md part 1, 30_encoding.md section 4: nothing faults, and only a script word that is no
transaction is refused. -/
def Obligations.OnlyReservedWordsStopTheMachine : Prop :=
  (∀ (s : State) (r : Fault), step s ≠ .fault r) ∧
  ∀ (s : State) (r : Refusal), step s = .refused r →
    ∃ w joins rest e, s.script = .word w joins :: rest ∧ decode w = .error e ∧ r = .reservedWord w e

/-- 70_reset_and_hazards.md section 3 (R246): with the script over and no command pending the core stays as it is; with a
command pending the completion is still owed, and the core stays as it is after it. That a step is then taken which leaves
the state as it is, is the model's choice (DESIGN CHOICE, log entry 17), and so is that the completion comes at once
(DESIGN CHOICE, log entry 2). -/
def Obligations.EndOfARun : Prop :=
  (∀ s : State, s.resetIn = false → s.script = [] → s.pend = none → step s = .next s) ∧
  (∀ (s : State) (c : Command), s.resetIn = false → s.script = [] → s.pend = some c →
    step s = .next (complete c s) ∧ step (complete c s) = .next (complete c s))

/-! Reset -/

/-- 70_reset_and_hazards.md section 1: what reset leaves. The buffer bytes are unspecified there, and the model's choice
for them is the free value of log entry 1. -/
def Obligations.ResetLeavesTheListedValues : Prop :=
  State.reset.st = .idle ∧ State.reset.err = 0x00 ∧
  State.reset.keylen = 0x00 ∧ State.reset.blklen = 0x00 ∧ State.reset.schedlen = 0x00 ∧
  State.reset.pend = none ∧
  exec (.rd 0x000) State.reset = .next { State.reset with returned := [0x00] } ∧
  exec (.rd 0x001) State.reset = .next { State.reset with returned := [0x00] } ∧
  ∃ d : Nat,
    (∀ n : Fin 16, State.reset.keybuf[n] = Config.unwritten d (0x010 + n.val)) ∧
    (∀ n : Fin 32, State.reset.blk[n] = Config.unwritten d (0x020 + n.val)) ∧
    (∀ n : Fin 176, State.reset.sched[n] = Config.unwritten d (0x100 + n.val))

/-- 70_reset_and_hazards.md section 1 (R232): a reset event abandons whatever is pending, no completion follows, and the
buffers are unspecified again; without one, a pending command stays pending until it completes. That the buffers hold the
free values of a draw is DESIGN CHOICE, log entry 1; that the input is a field which the event clears, the host keeping its
script and its record, is DESIGN CHOICE, log entry 7. -/
def Obligations.OnlyResetAbandonsACommand : Prop :=
  (∀ s : State, s.resetIn = true →
    ∃ t, step s = .next t ∧ t.pend = none ∧ t.st = .idle ∧ t.err = 0x00 ∧
      t.keylen = 0x00 ∧ t.blklen = 0x00 ∧ t.schedlen = 0x00 ∧ t.resetIn = false ∧
      (∀ c, nextMove t ≠ .complete c) ∧
      t.keybuf = unwrittenBuffer 16 0x010 s.draws ∧
      t.blk = unwrittenBuffer 32 0x020 s.draws ∧
      t.sched = unwrittenBuffer 176 0x100 s.draws ∧
      t.script = s.script ∧ t.pos = s.pos ∧ t.returned = s.returned ∧ t.readFrom = s.readFrom ∧
      t.expectsHeld = s.expectsHeld) ∧
  (∀ (s t : State) (c : Command), s.Running c → step s = .next t →
    (t.Running c ∧ s.SameCore t) ∨ t = complete c s)

/-- 70_reset_and_hazards.md section 1: after a reset every command fails its length check. -/
def Obligations.CommandsAreRejectedAfterReset : Prop :=
  ∀ s t : State, s.resetIn = true → step s = .next t →
    exec .expand t = .next { t with st := .error, err := 0x01 } ∧
    exec .encryptPair t = .next { t with st := .error, err := 0x02 }

/-! RD -/

/-- 43_host_transactions.md, R190: the byte a read returns, at every offset and in every state; nothing else changes. A
buffer read while `BUSY` returns an unspecified byte there; that it is the free value of the counter `draws`, and that the
counter advances, is DESIGN CHOICE, log entry 4. -/
def Obligations.ReadReturnsTheByteOfItsOffset : Prop :=
  ∀ (a : Addr) (s : State),
    (a = 0x000 → exec (.rd a) s = .next { s with returned := s.returned ++ [0x00] }) ∧
    (a = 0x001 → exec (.rd a) s = .next { s with returned := s.returned ++
      [match s.st with | .idle => 0x00 | .busy => 0x01 | .done => 0x02 | .error => 0x03] }) ∧
    (a = 0x002 → exec (.rd a) s = .next { s with returned := s.returned ++ [s.err] }) ∧
    (a = 0x004 → exec (.rd a) s = .next { s with returned := s.returned ++ [s.keylen] }) ∧
    (a = 0x005 → exec (.rd a) s = .next { s with returned := s.returned ++ [s.blklen] }) ∧
    (a = 0x006 → exec (.rd a) s = .next { s with returned := s.returned ++ [s.schedlen] }) ∧
    (ReservedOffset a → exec (.rd a) s = .next { s with returned := s.returned ++ [0x00] }) ∧
    (BufferOffset a → s.st = .busy → exec (.rd a) s =
      .next { s with returned := s.returned ++ [Config.busyRead s.draws], draws := s.draws + 1 }) ∧
    (∀ _h : 0x010 ≤ a.toNat ∧ a.toNat ≤ 0x01F, s.st ≠ .busy →
      exec (.rd a) s = .next { s with returned := s.returned ++ [s.keybuf[a.toNat - 0x010]] }) ∧
    (∀ _h : 0x020 ≤ a.toNat ∧ a.toNat ≤ 0x03F, s.st ≠ .busy →
      exec (.rd a) s = .next { s with returned := s.returned ++ [s.blk[a.toNat - 0x020]] }) ∧
    (∀ _h : 0x100 ≤ a.toNat ∧ a.toNat ≤ 0x1AF, s.st ≠ .busy →
      exec (.rd a) s = .next { s with returned := s.returned ++ [s.sched[a.toNat - 0x100]] })

/-- 20_memory.md section 3: the frame of `RD`. One byte goes to the host; of the state only that record and the counter of
free values (log entry 4) may differ. -/
def Obligations.ReadChangesNoState : Prop :=
  ∀ (a : Addr) (s t : State), exec (.rd a) s = .next t →
    (∃ b, t = { s with returned := s.returned ++ [b], draws := t.draws }) ∧
    (¬ (BufferOffset a ∧ s.st = .busy) → t.draws = s.draws) ∧
    ∀ c : Cell, s.st ≠ .busy → readCell t c = readCell s c

/-- 20_memory.md section 3: two reads of one offset with nothing between return the same byte, but for buffers while
`BUSY`. -/
def Obligations.RepeatedReadReturnsTheSameByte : Prop :=
  ∀ (a : Addr) (s t u : State), ¬ (BufferOffset a ∧ s.st = .busy) →
    exec (.rd a) s = .next t → exec (.rd a) t = .next u →
    ∃ b, u.returned = s.returned ++ [b, b]

/-! WR -/

/-- R191: the effect of a write, at every offset and in every state. -/
def Obligations.WriteActsOnTheCellOfItsOffset : Prop :=
  ∀ (a : Addr) (d : Byte) (s : State),
    (s.st = .busy → exec (.wr a d) s = .next s) ∧
    (s.st ≠ .busy →
      (a = 0x000 → exec (.wr a d) s =
        if d = 0x01 then exec .expand s else if d = 0x02 then exec .encryptPair s else .next s) ∧
      (a = 0x001 ∨ a = 0x002 ∨ ReservedOffset a → exec (.wr a d) s = .next s) ∧
      (a = 0x004 → exec (.wr a d) s = .next { s with keylen := d }) ∧
      (a = 0x005 → exec (.wr a d) s = .next { s with blklen := d }) ∧
      (a = 0x006 → exec (.wr a d) s = .next { s with schedlen := d }) ∧
      (∀ _h : 0x010 ≤ a.toNat ∧ a.toNat ≤ 0x01F,
        exec (.wr a d) s = .next { s with keybuf := s.keybuf.set (a.toNat - 0x010) d }) ∧
      (∀ _h : 0x020 ≤ a.toNat ∧ a.toNat ≤ 0x03F,
        exec (.wr a d) s = .next { s with blk := s.blk.set (a.toNat - 0x020) d }) ∧
      (∀ _h : 0x100 ≤ a.toNat ∧ a.toNat ≤ 0x1AF,
        exec (.wr a d) s = .next { s with sched := s.sched.set (a.toNat - 0x100) d }))

/-- R97: a write of a reserved code to `CMD` changes no state at all, in any state. -/
def Obligations.ReservedCommandCodeChangesNothing : Prop :=
  ∀ (c : Byte) (s : State), c ≠ 0x01 → c ≠ 0x02 → exec (.wr 0x000 c) s = .next s

/-- R192: a write to `CMD` outside `BUSY` issues the command of its code, and what the command does is the same from
`IDLE`, `DONE` and `ERROR`, whatever `ERR` held: both are overwritten. -/
def Obligations.CommandIssueFromAnyRestingStatus : Prop :=
  ∀ (s : State) (st : St) (e : Byte), s.st ≠ .busy → st ≠ .busy →
    exec (.wr 0x000 0x01) s = exec .expand s ∧
    exec (.wr 0x000 0x02) s = exec .encryptPair s ∧
    (∀ c : Byte, c ≠ 0x01 → c ≠ 0x02 → exec (.wr 0x000 c) s = .next s) ∧
    exec .expand { s with st := st, err := e } = exec .expand s ∧
    exec .encryptPair { s with st := st, err := e } = exec .encryptPair s

/-- 10_state.md section 2, 20_memory.md section 3, 43_host_transactions.md R191, R192: the frame of `WR`. While `BUSY` nothing changes; a
write to `CMD` touches only `ST`, `ERR`, `PEND` and the model's own fields (log entries 2, 4); any other write leaves every other byte of
the register space, and all that has no offset, as it was. -/
def Obligations.WriteLeavesEveryOtherByteAlone : Prop :=
  ∀ (a : Addr) (d : Byte) (s t : State), exec (.wr a d) s = .next t →
    (s.st = .busy → t = s) ∧
    (a = 0x000 → t =
      { s with st := t.st, err := t.err, pend := t.pend, latencyLeft := t.latencyLeft, draws := t.draws }) ∧
    (a ≠ 0x000 → t =
      { s with keybuf := t.keybuf, blk := t.blk, sched := t.sched,
               keylen := t.keylen, blklen := t.blklen, schedlen := t.schedlen }) ∧
    (∀ b : Addr, a ≠ 0x000 → b ≠ a → readCell t (cellOf b) = readCell s (cellOf b))

/-- 20_memory.md section 6: a read returns the value of the write before it. -/
def Obligations.ReadReturnsTheByteWritten : Prop :=
  ∀ (a : Addr) (d : Byte) (s : State), s.st ≠ .busy →
    (a = 0x004 ∨ a = 0x005 ∨ a = 0x006 ∨ BufferOffset a) →
    ∃ t u, exec (.wr a d) s = .next t ∧ exec (.rd a) t = .next u ∧ u.returned = s.returned ++ [d]

/-- 70_reset_and_hazards.md section 3: while `BUSY` no write and no command changes anything. -/
def Obligations.BusyIgnoresEveryWrite : Prop :=
  ∀ s : State, s.st = .busy →
    (∀ a d, exec (.wr a d) s = .next s) ∧ exec .expand s = .next s ∧ exec .encryptPair s = .next s

/-! EXPAND and ENCRYPT_PAIR -/

/-- 41_key_expansion.md section 3 (R147): the accept step of `EXPAND`. The latency drawn is the model's (DESIGN CHOICE, log
entry 2). -/
def Obligations.ExpandAcceptStep : Prop :=
  ∀ s : State, s.st ≠ .busy →
    (s.keylen ≠ 16 → exec .expand s = .next { s with st := .error, err := 0x01 }) ∧
    (s.keylen = 16 → exec .expand s =
      .next { s with st := .busy, err := 0x00, pend := some .expand,
                     latencyLeft := Config.latExpand s.draws, draws := s.draws + 1 })

/-- 42_round_pipeline.md section 4 (R173): the accept step of `ENCRYPT_PAIR`, the block length checked first. The latency
drawn is the model's (DESIGN CHOICE, log entry 2). -/
def Obligations.EncryptPairAcceptStep : Prop :=
  ∀ s : State, s.st ≠ .busy →
    (s.blklen ≠ 32 → exec .encryptPair s = .next { s with st := .error, err := 0x02 }) ∧
    (s.blklen = 32 → s.schedlen ≠ 176 → exec .encryptPair s = .next { s with st := .error, err := 0x03 }) ∧
    (s.blklen = 32 → s.schedlen = 176 → exec .encryptPair s =
      .next { s with st := .busy, err := 0x00, pend := some .encryptPair,
                     latencyLeft := Config.latEncrypt s.draws, draws := s.draws + 1 })

/-- R148: the completion step of `EXPAND`, one step, with nothing else touched. -/
def Obligations.ExpandCompletionStep : Prop :=
  ∀ s : State, s.resetIn = false → s.pend = some .expand → (s.latencyLeft = 0 ∨ s.script = []) →
    step s = .next { s with sched := expand s.keybuf, schedlen := 0xB0, pend := none, st := .done }

/-- R174: the completion step of `ENCRYPT_PAIR`, one step, in place, with nothing else touched. -/
def Obligations.EncryptPairCompletionStep : Prop :=
  ∀ s : State, s.resetIn = false → s.pend = some .encryptPair → (s.latencyLeft = 0 ∨ s.script = []) →
    step s = .next { s with blk := encryptPair s.blk s.sched, pend := none, st := .done }

/-- 60_exceptions.md section 2: a rejected command changes `ST` and `ERR` only, and no completion follows. -/
def Obligations.RejectionIsPrecise : Prop :=
  ∀ (i : Instr) (s t : State), s.Inv → s.st ≠ .busy → i = .expand ∨ i = .encryptPair →
    exec i s = .next t → t.st = .error →
    t = { s with st := .error, err := t.err } ∧
    (t.err = 0x01 ∨ t.err = 0x02 ∨ t.err = 0x03) ∧ t.pend = none ∧ ∀ c, nextMove t ≠ .complete c

/-- R200: the core reports three errors only, each by the command that issues it and on its own condition. -/
def Obligations.ThreeErrorsAndTheirCauses : Prop :=
  ∀ (i : Instr) (s t : State), exec i s = .next t → t.st = .error →
    (s.st = .error ∧ t.err = s.err) ∨
    (s.st ≠ .busy ∧ (i = .expand ∨ i = .wr 0x000 0x01) ∧ s.keylen ≠ 16 ∧ t.err = 0x01) ∨
    (s.st ≠ .busy ∧ (i = .encryptPair ∨ i = .wr 0x000 0x02) ∧ s.blklen ≠ 32 ∧ t.err = 0x02) ∨
    (s.st ≠ .busy ∧ (i = .encryptPair ∨ i = .wr 0x000 0x02) ∧ s.blklen = 32 ∧ s.schedlen ≠ 176 ∧ t.err = 0x03)

/-- 10_state.md section 4, 43_host_transactions.md R191: no step but a reset enters `IDLE`, and no transaction but a command
issue changes `ST`, `ERR` or `PEND`. -/
def Obligations.StatusStaysUntilTheNextCommand : Prop :=
  (∀ s t : State, step s = .next t → s.resetIn = false → t.st = .idle → s.st = .idle) ∧
  (∀ (i : Instr) (s t : State), exec i s = .next t →
    i ≠ .expand → i ≠ .encryptPair → i ≠ .wr 0x000 0x01 → i ≠ .wr 0x000 0x02 →
    t.st = s.st ∧ t.err = s.err ∧ t.pend = s.pend)

/-- 70_reset_and_hazards.md section 2: after a completed `ENCRYPT_PAIR` the next one is accepted at once, with no
register written between. The latency drawn at the acceptance is the model's (DESIGN CHOICE, log entry 2). -/
def Obligations.EncryptPairCanBeIssuedAgain : Prop :=
  ∀ s t : State, s.Inv → s.Running .encryptPair → step s = .next t → t.st = .done →
    exec .encryptPair t =
      .next { t with st := .busy, err := 0x00, pend := some .encryptPair,
                     latencyLeft := Config.latEncrypt t.draws, draws := t.draws + 1 }

/-! Invariants and whole-machine rules -/

/-- 10_state.md sections 4 to 6: every step keeps the invariant. -/
def Obligations.StepKeepsTheInvariant : Prop :=
  ∀ s t : State, s.Inv → step s = .next t → t.Inv

/-- 10_state.md sections 4 to 6: the invariant holds after reset. -/
def Obligations.ResetMeetsTheInvariant : Prop := State.reset.Inv

/-- 10_state.md section 1, the column "who writes it": each buffer and each length register changes only by its own
writers. -/
def Obligations.EachElementHasItsWritersOnly : Prop :=
  ∀ s t : State, step s = .next t → nextMove s ≠ .reset →
    (t.keybuf = s.keybuf ∨
      ∃ a d, nextMove s = .transact (.wr a d) ∧ 0x010 ≤ a.toNat ∧ a.toNat ≤ 0x01F ∧ s.st ≠ .busy) ∧
    (t.blk = s.blk ∨ nextMove s = .complete .encryptPair ∨
      ∃ a d, nextMove s = .transact (.wr a d) ∧ 0x020 ≤ a.toNat ∧ a.toNat ≤ 0x03F ∧ s.st ≠ .busy) ∧
    (t.sched = s.sched ∨ nextMove s = .complete .expand ∨
      ∃ a d, nextMove s = .transact (.wr a d) ∧ 0x100 ≤ a.toNat ∧ a.toNat ≤ 0x1AF ∧ s.st ≠ .busy) ∧
    (t.keylen = s.keylen ∨ ∃ d, nextMove s = .transact (.wr 0x004 d) ∧ s.st ≠ .busy) ∧
    (t.blklen = s.blklen ∨ ∃ d, nextMove s = .transact (.wr 0x005 d) ∧ s.st ≠ .busy) ∧
    (t.schedlen = s.schedlen ∨ nextMove s = .complete .expand ∨
      ∃ d, nextMove s = .transact (.wr 0x006 d) ∧ s.st ≠ .busy)

/-- R24: a completed `EXPAND` leaves the schedule of the key, and it stays so until the host writes a byte of `SCHED` or
`KEYBUF` (or a reset). -/
def Obligations.ScheduleOfTheKeyIsKept : Prop :=
  (∀ s t : State, nextMove s = .complete .expand → step s = .next t → t.ScheduleOfKey) ∧
  (∀ s t : State, s.ScheduleOfKey → step s = .next t → nextMove s ≠ .reset →
    (∀ a d, nextMove s = .transact (.wr a d) →
      ¬(0x010 ≤ a.toNat ∧ a.toNat ≤ 0x01F) ∧ ¬(0x100 ≤ a.toNat ∧ a.toNat ≤ 0x1AF)) →
    t.ScheduleOfKey)

/-- 70_reset_and_hazards.md section 3 (R240, R245), 10_state.md section 2 (R26): a pending command completes, whatever the
host does meanwhile, and on the operands it was accepted with. The bound, the latency the command drew, is the model's
(DESIGN CHOICE, log entry 2): the spec says only that the delay is finite. -/
def Obligations.PendingCommandCompletesOnItsOperands : Prop :=
  ∀ (s t : State) (c : Command), s.Running c → run (s.latencyLeft + 1) s = .next t →
    ∃ k u, k ≤ s.latencyLeft ∧ run k s = .next u ∧ s.SameCore u ∧
      nextMove u = .complete c ∧ step u = .next (complete c u)

/-- 30_encoding.md section 6 (R104): `WAIT` polls `STATUS` until it is not `BUSY`, at least once; its last byte is the
outcome and its result (log entry 6), and the command has completed when `WAIT` is over. R104 does not fix the number of
polls; that they are as many as the latency and one more is the model's (DESIGN CHOICE, log entry 2). -/
def Obligations.WaitPollsUntilNotBusy : Prop :=
  (∀ (s : State) (c : Command) (rest : List HostItem), s.Running c → s.script = .wait :: rest →
    run (s.latencyLeft + 2) s = .next
      { complete c s with
        latencyLeft := 0, script := rest, pos := s.pos + 1, readFrom := s.returned.length + s.latencyLeft,
        returned := s.returned ++ List.replicate s.latencyLeft 0x01 ++ [0x02] }) ∧
  (∀ (s : State) (rest : List HostItem), s.resetIn = false → s.st ≠ .busy → s.pend = none →
    s.script = .wait :: rest →
    step s = .next
      { s with latencyLeft := s.latencyLeft - 1, script := rest, pos := s.pos + 1, readFrom := s.returned.length,
               returned := s.returned ++
                 [match s.st with | .idle => 0x00 | .busy => 0x01 | .done => 0x02 | .error => 0x03] })

/-- 30_encoding.md section 6 (R108), 10_state.md section 3 (R41): `EXPECT` is no transaction. It changes nothing of the core,
returns nothing and leaves the host's position; the host records whether the result of the read before it is what is
expected, the whole of it (the record is the model's: DESIGN CHOICE, log entry 6). -/
def Obligations.ExpectIsNoTransaction : Prop :=
  ∀ (s t : State) (bytes : List Byte) (rest : List HostItem),
    s.resetIn = false → (s.pend = none ∨ s.latencyLeft ≠ 0) → s.script = .expect bytes :: rest →
    step s = .next t →
    s.SameCore t ∧ t.returned = s.returned ∧ t.script = rest ∧ t.pos = s.pos ∧ t.readResult = s.readResult ∧
    (t.expectsHeld = true ↔ s.expectsHeld = true ∧ s.readResult = bytes)

/-- 30_encoding.md section 6 (R104, R108): what an `EXPECT` speaks of is the result of the read before it. A `RD` line's is
its one byte, whatever was read before; no move but a `RD` or a poll of `WAIT` changes the result. How the host keeps it is
the model's (DESIGN CHOICE, log entry 6). -/
def Obligations.ResultIsOfTheLastRead : Prop :=
  (∀ (s : State) (a : Addr) (rest : List HostItem), s.resetIn = false → (s.pend = none ∨ s.latencyLeft ≠ 0) →
    s.script = (ScriptLine.rd a).items ++ rest →
    ∃ t b, step s = .next t ∧ t.returned = s.returned ++ [b] ∧ t.readResult = [b]) ∧
  (∀ s t : State, step s = .next t → (∀ a, nextMove s ≠ .transact (.rd a)) → nextMove s ≠ .poll →
    t.readResult = s.readResult)

/-! Loads and reads of whole operands -/

/-- 30_encoding.md section 6 (R105, R106): the writes a load expands to. What a load of more than 255 bytes expands to, its
length modulo 256, is the model's choice (DESIGN CHOICE, log entry 18). -/
def Obligations.LoadsWriteTheirBytesThenTheLength : Prop :=
  (∀ bytes : List Byte,
    (ScriptLine.ldkey bytes).items.length = min bytes.length 16 + 1 ∧
    (∀ m, m < min bytes.length 16 → (ScriptLine.ldkey bytes).items[m]? =
      some (.word (encode (.wr (BitVec.ofNat 12 (0x010 + m)) (bytes.getD m 0x00))))) ∧
    (ScriptLine.ldkey bytes).items[min bytes.length 16]? =
      some (.word (encode (.wr 0x004 (BitVec.ofNat 8 bytes.length))))) ∧
  (∀ bytes : List Byte,
    (ScriptLine.ldblk bytes).items.length = min bytes.length 32 + 1 ∧
    (∀ m, m < min bytes.length 32 → (ScriptLine.ldblk bytes).items[m]? =
      some (.word (encode (.wr (BitVec.ofNat 12 (0x020 + m)) (bytes.getD m 0x00))))) ∧
    (ScriptLine.ldblk bytes).items[min bytes.length 32]? =
      some (.word (encode (.wr 0x005 (BitVec.ofNat 8 bytes.length))))) ∧
  (∀ bytes : List Byte,
    (ScriptLine.ldsched bytes).items.length = min bytes.length 176 + 1 ∧
    (∀ m, m < min bytes.length 176 → (ScriptLine.ldsched bytes).items[m]? =
      some (.word (encode (.wr (BitVec.ofNat 12 (0x100 + m)) (bytes.getD m 0x00))))) ∧
    (ScriptLine.ldsched bytes).items[min bytes.length 176]? =
      some (.word (encode (.wr 0x006 (BitVec.ofNat 8 bytes.length)))))

/-- R107: run on a core that is not `BUSY`, the reads of `RDBLK`, `RDSCHED` and `RDKEY` return the whole buffer, lowest
offset first, which is the result of the read, and leave the core as it is. -/
def Obligations.ReadsReturnTheWholeBuffer : Prop :=
  ∀ (s : State) (rest : List HostItem), s.resetIn = false → s.st ≠ .busy → s.pend = none →
    (s.script = ScriptLine.rdblk.items ++ rest → ∃ t, run 32 s = .next t ∧ s.SameCore t ∧
      t.script = rest ∧ t.returned = s.returned ++ s.blk.toList ∧ t.readResult = s.blk.toList) ∧
    (s.script = ScriptLine.rdsched.items ++ rest → ∃ t, run 176 s = .next t ∧ s.SameCore t ∧
      t.script = rest ∧ t.returned = s.returned ++ s.sched.toList ∧ t.readResult = s.sched.toList) ∧
    (s.script = ScriptLine.rdkey.items ++ rest → ∃ t, run 16 s = .next t ∧ s.SameCore t ∧
      t.script = rest ∧ t.returned = s.returned ++ s.keybuf.toList ∧ t.readResult = s.keybuf.toList)

/-! Arithmetic -/

/-- 40_primitives.md section 2: laws of the field's multiplication, and the inverse of every byte but 0x00. -/
def Obligations.FieldMultiplicationLaws : Prop :=
  (∀ a b : Byte, gmul a b = gmul b a) ∧
  (∀ a b c : Byte, gmul (a ^^^ b) c = gmul a c ^^^ gmul b c) ∧
  (∀ a : Byte, gmul a 0x01 = a ∧ gmul a 0x00 = 0x00 ∧ gmul a 0x02 = xtime a) ∧
  (∀ a : Byte, a ≠ 0x00 → ∃ q, gmul a q = 0x01)

/-- R115: the S-box of the table is the one of the definition: the affine map of the inverse, 0x00 standing for the
inverse of 0x00. -/
def Obligations.SboxIsTheAffineMapOfTheInverse : Prop :=
  ∀ a : Byte, ∃ q : Byte,
    (a = 0x00 → q = 0x00) ∧ (a ≠ 0x00 → gmul a q = 0x01) ∧
    sbox a = q ^^^ rotl8 q 1 ^^^ rotl8 q 2 ^^^ rotl8 q 3 ^^^ rotl8 q 4 ^^^ 0x63

/-- 40_primitives.md section 3: the S-box is a bijection without fixed or opposite fixed points. -/
def Obligations.SboxIsABijectionWithoutFixedPoints : Prop :=
  (∀ a b : Byte, sbox a = sbox b → a = b) ∧ (∀ b : Byte, ∃ a, sbox a = b) ∧
  (∀ a : Byte, sbox a ≠ a ∧ sbox a ≠ a ^^^ 0xFF)

/-- R118: the round constants are the successive powers of 2 in the field, starting at 0x01. -/
def Obligations.RoundConstantsDouble : Prop :=
  rcon 1 = 0x01 ∧ ∀ j, 2 ≤ j → j ≤ 10 → rcon j = xtime (rcon (j - 1))

/-! The Key Scheduler -/

/-- R141, R142, R143: the word operations, byte by byte, byte 0 the most significant. -/
def Obligations.WordOperationsByByte : Prop :=
  (∀ w : Word, rotWord w = w.rotateLeft 8) ∧
  (∀ (w : Word) (m : Nat), m < 4 → wordByte (rotWord w) m = wordByte w ((m + 1) % 4)) ∧
  (∀ (w : Word) (m : Nat), m < 4 → wordByte (subWord w) m = sbox (wordByte w m)) ∧
  (∀ (w : Word) (j m : Nat), m < 4 →
    wordByte (rconXor w j) m = if m = 0 then wordByte w 0 ^^^ rcon j else wordByte w m)

/-- R144: every word of the schedule after the fourth is the word four back, combined with the previous word, which every
fourth time is rotated, substituted and given the round constant; 41_key_expansion.md section 2 for the first four. -/
def Obligations.ScheduleWordsFollowNextWord : Prop :=
  ∀ key : Block,
    (∀ j : Fin 4, scheduleWord (expand key) ⟨j.val, by omega⟩ = blockWord key j) ∧
    (∀ (i : Nat) (h : 4 ≤ i ∧ i ≤ 43),
      scheduleWord (expand key) ⟨i, by omega⟩ =
        scheduleWord (expand key) ⟨i - 4, by omega⟩ ^^^
        if i % 4 = 0 then rconXor (subWord (rotWord (scheduleWord (expand key) ⟨i - 1, by omega⟩))) (i / 4)
        else scheduleWord (expand key) ⟨i - 1, by omega⟩)

/-- 41_key_expansion.md section 2: the round-key form computes the same schedule, each round key from the one before. -/
def Obligations.RoundKeyFormOfExpand : Prop :=
  ∀ (key : Block) (k : Fin 10),
    roundKey (expand key) k.succ = nextRoundKey (roundKey (expand key) k.castSucc) (k.val + 1)

/-- 41_key_expansion.md section 2: round key 0 is the key, so different keys have different schedules. -/
def Obligations.FirstRoundKeyIsTheKey : Prop :=
  (∀ key : Block, roundKey (expand key) 0 = key) ∧
  (∀ key key' : Block, expand key = expand key' → key = key')

/-! The cipher engine -/

/-- R160, R161: AddRoundKey and SubBytes act on each byte in its place; AddRoundKey undoes itself and an all-zero key
changes nothing. -/
def Obligations.AddRoundKeyAndSubBytes : Prop :=
  (∀ (S K : Block) (n : Fin 16), (addRoundKey S K)[n] = S[n] ^^^ K[n]) ∧
  (∀ S K : Block, addRoundKey (addRoundKey S K) K = S) ∧
  (∀ S : Block, addRoundKey S (Vector.replicate 16 0x00) = S) ∧
  (∀ (S : Block) (n : Fin 16), (subBytes S)[n] = sbox S[n]) ∧
  subBytes (Vector.replicate 16 0x00) = Vector.replicate 16 0x63

/-- R162: ShiftRows rotates row `r` left by `r` positions, and so four times over is the identity. -/
def Obligations.ShiftRowsRotatesEachRowLeft : Prop :=
  (∀ (S : Block) (row col : Fin 4),
    (shiftRows S)[row.val + 4 * col.val] = S[row.val + 4 * ((col.val + row.val) % 4)]) ∧
  (∀ S : Block, shiftRows (shiftRows (shiftRows (shiftRows S))) = S) ∧
  (∀ b : Byte, shiftRows (Vector.replicate 16 b) = Vector.replicate 16 b)

/-- R120, R163: MixColumns multiplies each column by the matrix whose row `t` is row 0, (02 03 01 01), rotated right by `t`
places, with `gmul` for products and XOR for sums; a column of four equal bytes is unchanged. -/
def Obligations.MixColumnsIsTheMatrixProduct : Prop :=
  (∀ (S : Block) (c t : Fin 4),
    (mixColumns S)[4 * c.val + t.val] =
      gmul ([0x02, 0x03, 0x01, 0x01].getD ((4 - t.val) % 4) 0x00) S[4 * c.val] ^^^
      gmul ([0x02, 0x03, 0x01, 0x01].getD ((5 - t.val) % 4) 0x00) S[4 * c.val + 1] ^^^
      gmul ([0x02, 0x03, 0x01, 0x01].getD ((6 - t.val) % 4) 0x00) S[4 * c.val + 2] ^^^
      gmul ([0x02, 0x03, 0x01, 0x01].getD ((7 - t.val) % 4) 0x00) S[4 * c.val + 3]) ∧
  (∀ (S : Block) (c t : Fin 4), S[4 * c.val + 1] = S[4 * c.val] → S[4 * c.val + 2] = S[4 * c.val] →
    S[4 * c.val + 3] = S[4 * c.val] → (mixColumns S)[4 * c.val + t.val] = S[4 * c.val])

/-- 42_round_pipeline.md sections 2 and 3: the sequence run on the pair register, both lanes in each step, gives the same
bytes as each lane run by itself. -/
def Obligations.PairRegisterPipelineEqualsTheLanes : Prop :=
  ∀ (V : Pair) (sched : Schedule), encryptPairV V sched = encryptPair V sched

/-- 42_round_pipeline.md section 3: each lane's output depends on its own input and the schedule only; equal inputs give
equal outputs; swapped lanes give swapped outputs. -/
def Obligations.LanesAreIndependent : Prop :=
  ∀ (A B : Block) (sched : Schedule),
    encryptPair (joinLanes A B) sched =
      joinLanes (laneA (encryptPair (joinLanes A A) sched)) (laneA (encryptPair (joinLanes B B) sched)) ∧
    laneA (encryptPair (joinLanes A A) sched) = laneB (encryptPair (joinLanes A A) sched) ∧
    encryptPair (joinLanes B A) sched =
      joinLanes (laneB (encryptPair (joinLanes A B) sched)) (laneA (encryptPair (joinLanes A B) sched))

/-- 10_state.md section 6, 42_round_pipeline.md section 5: what a completed `ENCRYPT_PAIR` leaves in a lane does not
depend on anything else in the machine: two states that agree on that lane and on the schedule agree on its result. -/
def Obligations.CompletedLaneDependsOnItsInputsOnly : Prop :=
  ∀ s s' t t' : State, nextMove s = .complete .encryptPair → nextMove s' = .complete .encryptPair →
    s.sched = s'.sched → step s = .next t → step s' = .next t' →
    (laneA s.blk = laneA s'.blk → laneA t.blk = laneA t'.blk) ∧
    (laneB s.blk = laneB s'.blk → laneB t.blk = laneB t'.blk)
end

