-- ==== Sys2Proof/Laws/Data.lean ====
section
/-! SUPPORT. Each operation on byte strings, one byte at a time: the lemmas to cite instead of unfolding. -/

namespace Sys2Proof.Machine

@[simp] theorem addRoundKey_get (S K : Block) (n : Nat) (h : n < 16) : (addRoundKey S K)[n] = S[n] ^^^ K[n] := by
  simp [addRoundKey]

@[simp] theorem subBytes_get (S : Block) (n : Nat) (h : n < 16) : (subBytes S)[n] = sbox S[n] := by
  simp [subBytes]

@[simp] theorem shiftRows_get (S : Block) (n : Nat) (h : n < 16) :
    (shiftRows S)[n] = S[n % 4 + 4 * ((n / 4 + n % 4) % 4)] := by
  simp [shiftRows]

@[simp] theorem mixColumns_get (S : Block) (n : Nat) (h : n < 16) :
    (mixColumns S)[n] =
      mixEntry S[4 * (n / 4)] S[4 * (n / 4) + 1] S[4 * (n / 4) + 2] S[4 * (n / 4) + 3] (n % 4) := by
  simp [mixColumns]

@[simp] theorem addRoundKeyV_get (V : Pair) (K : Block) (n : Nat) (h : n < 32) :
    (addRoundKeyV V K)[n] = V[n] ^^^ K[n % 16] := by
  simp [addRoundKeyV]

@[simp] theorem subBytesV_get (V : Pair) (n : Nat) (h : n < 32) : (subBytesV V)[n] = sbox V[n] := by
  simp [subBytesV]

@[simp] theorem shiftRowsV_get (V : Pair) (n : Nat) (h : n < 32) :
    (shiftRowsV V)[n] = V[16 * (n / 16) + (n % 4 + 4 * ((n % 16 / 4 + n % 4) % 4))] := by
  simp [shiftRowsV]

@[simp] theorem mixColumnsV_get (V : Pair) (n : Nat) (h : n < 32) :
    (mixColumnsV V)[n] =
      mixEntry V[4 * (n / 4)] V[4 * (n / 4) + 1] V[4 * (n / 4) + 2] V[4 * (n / 4) + 3] (n % 4) := by
  simp [mixColumnsV]

@[simp] theorem laneA_get (V : Pair) (n : Nat) (h : n < 16) : (laneA V)[n] = V[n] := by
  simp [laneA]

@[simp] theorem laneB_get (V : Pair) (n : Nat) (h : n < 16) : (laneB V)[n] = V[16 + n] := by
  simp [laneB]

theorem joinLanes_get_low (A B : Block) (n : Nat) (h : n < 16) : (joinLanes A B)[n] = A[n] := by
  simp [joinLanes, h]

theorem joinLanes_get_high (A B : Block) (n : Nat) (h : n < 16) : (joinLanes A B)[16 + n] = B[n] := by
  simp [joinLanes]

@[simp] theorem laneA_joinLanes (A B : Block) : laneA (joinLanes A B) = A := by
  refine Vector.ext fun n h => ?_
  simp [joinLanes_get_low A B n h]

@[simp] theorem laneB_joinLanes (A B : Block) : laneB (joinLanes A B) = B := by
  refine Vector.ext fun n h => ?_
  simp [joinLanes_get_high A B n h]

@[simp] theorem roundKey_get (sched : Schedule) (k : Fin 11) (n : Nat) (h : n < 16) :
    (roundKey sched k)[n] = sched[16 * k.val + n] := by
  simp [roundKey]

@[simp] theorem storeSchedule_get (W : List Word) (n : Nat) (h : n < 176) :
    (storeSchedule W)[n] = wordByte (W.getD (n / 4) 0) (n % 4) := by
  simp [storeSchedule]

@[simp] theorem loadKeyWords_length (key : Block) : (loadKeyWords key).length = 4 := by
  simp [loadKeyWords]

@[simp] theorem keyWords_length (key : Block) (t : Nat) : (keyWords key t).length = 4 + t := by
  induction t with
  | zero => simp [keyWords]
  | succ t ih => simp [keyWords, ih]; omega

/-- Later turns of `NextWord` leave the earlier words alone. -/
theorem keyWords_getElem?_succ (key : Block) (t i : Nat) (h : i < 4 + t) :
    (keyWords key (t + 1))[i]? = (keyWords key t)[i]? := by
  simp [keyWords, List.getElem?_append, h]

/-- The word that turn `t` of `NextWord` adds. -/
theorem keyWords_getElem?_last (key : Block) (t : Nat) :
    (keyWords key (t + 1))[4 + t]? = some (nextWord (keyWords key t) (4 + t)) := by
  simp [keyWords]

end Sys2Proof.Machine
end

