-- ==== Sys2Proof/Laws/State.lean ====
section
/-! SUPPORT. What each update of the state does to each field: one lemma a field, so that no proof unfolds a record update. -/

namespace Sys2Proof.Machine

variable (s : State)

/-! `State.draw` -/
@[simp] theorem State.keybuf_draw : (s.draw).keybuf = s.keybuf := rfl
@[simp] theorem State.blk_draw : (s.draw).blk = s.blk := rfl
@[simp] theorem State.sched_draw : (s.draw).sched = s.sched := rfl
@[simp] theorem State.keylen_draw : (s.draw).keylen = s.keylen := rfl
@[simp] theorem State.blklen_draw : (s.draw).blklen = s.blklen := rfl
@[simp] theorem State.schedlen_draw : (s.draw).schedlen = s.schedlen := rfl
@[simp] theorem State.st_draw : (s.draw).st = s.st := rfl
@[simp] theorem State.err_draw : (s.draw).err = s.err := rfl
@[simp] theorem State.pend_draw : (s.draw).pend = s.pend := rfl
@[simp] theorem State.latencyLeft_draw : (s.draw).latencyLeft = s.latencyLeft := rfl
@[simp] theorem State.draws_draw : (s.draw).draws = s.draws + 1 := rfl
@[simp] theorem State.resetIn_draw : (s.draw).resetIn = s.resetIn := rfl
@[simp] theorem State.script_draw : (s.draw).script = s.script := rfl
@[simp] theorem State.pos_draw : (s.draw).pos = s.pos := rfl
@[simp] theorem State.returned_draw : (s.draw).returned = s.returned := rfl
@[simp] theorem State.readFrom_draw : (s.draw).readFrom = s.readFrom := rfl
@[simp] theorem State.expectsHeld_draw : (s.draw).expectsHeld = s.expectsHeld := rfl

/-! `State.pushReturned` -/
@[simp] theorem State.keybuf_pushReturned (b : Byte) : (s.pushReturned b).keybuf = s.keybuf := rfl
@[simp] theorem State.blk_pushReturned (b : Byte) : (s.pushReturned b).blk = s.blk := rfl
@[simp] theorem State.sched_pushReturned (b : Byte) : (s.pushReturned b).sched = s.sched := rfl
@[simp] theorem State.keylen_pushReturned (b : Byte) : (s.pushReturned b).keylen = s.keylen := rfl
@[simp] theorem State.blklen_pushReturned (b : Byte) : (s.pushReturned b).blklen = s.blklen := rfl
@[simp] theorem State.schedlen_pushReturned (b : Byte) : (s.pushReturned b).schedlen = s.schedlen := rfl
@[simp] theorem State.st_pushReturned (b : Byte) : (s.pushReturned b).st = s.st := rfl
@[simp] theorem State.err_pushReturned (b : Byte) : (s.pushReturned b).err = s.err := rfl
@[simp] theorem State.pend_pushReturned (b : Byte) : (s.pushReturned b).pend = s.pend := rfl
@[simp] theorem State.latencyLeft_pushReturned (b : Byte) : (s.pushReturned b).latencyLeft = s.latencyLeft := rfl
@[simp] theorem State.draws_pushReturned (b : Byte) : (s.pushReturned b).draws = s.draws := rfl
@[simp] theorem State.resetIn_pushReturned (b : Byte) : (s.pushReturned b).resetIn = s.resetIn := rfl
@[simp] theorem State.script_pushReturned (b : Byte) : (s.pushReturned b).script = s.script := rfl
@[simp] theorem State.pos_pushReturned (b : Byte) : (s.pushReturned b).pos = s.pos := rfl
@[simp] theorem State.returned_pushReturned (b : Byte) : (s.pushReturned b).returned = s.returned ++ [b] := rfl
@[simp] theorem State.readFrom_pushReturned (b : Byte) : (s.pushReturned b).readFrom = s.readFrom := rfl
@[simp] theorem State.expectsHeld_pushReturned (b : Byte) : (s.pushReturned b).expectsHeld = s.expectsHeld := rfl

/-! `State.setKeylen` -/
@[simp] theorem State.keybuf_setKeylen (d : Byte) : (s.setKeylen d).keybuf = s.keybuf := rfl
@[simp] theorem State.blk_setKeylen (d : Byte) : (s.setKeylen d).blk = s.blk := rfl
@[simp] theorem State.sched_setKeylen (d : Byte) : (s.setKeylen d).sched = s.sched := rfl
@[simp] theorem State.keylen_setKeylen (d : Byte) : (s.setKeylen d).keylen = d := rfl
@[simp] theorem State.blklen_setKeylen (d : Byte) : (s.setKeylen d).blklen = s.blklen := rfl
@[simp] theorem State.schedlen_setKeylen (d : Byte) : (s.setKeylen d).schedlen = s.schedlen := rfl
@[simp] theorem State.st_setKeylen (d : Byte) : (s.setKeylen d).st = s.st := rfl
@[simp] theorem State.err_setKeylen (d : Byte) : (s.setKeylen d).err = s.err := rfl
@[simp] theorem State.pend_setKeylen (d : Byte) : (s.setKeylen d).pend = s.pend := rfl
@[simp] theorem State.latencyLeft_setKeylen (d : Byte) : (s.setKeylen d).latencyLeft = s.latencyLeft := rfl
@[simp] theorem State.draws_setKeylen (d : Byte) : (s.setKeylen d).draws = s.draws := rfl
@[simp] theorem State.resetIn_setKeylen (d : Byte) : (s.setKeylen d).resetIn = s.resetIn := rfl
@[simp] theorem State.script_setKeylen (d : Byte) : (s.setKeylen d).script = s.script := rfl
@[simp] theorem State.pos_setKeylen (d : Byte) : (s.setKeylen d).pos = s.pos := rfl
@[simp] theorem State.returned_setKeylen (d : Byte) : (s.setKeylen d).returned = s.returned := rfl
@[simp] theorem State.readFrom_setKeylen (d : Byte) : (s.setKeylen d).readFrom = s.readFrom := rfl
@[simp] theorem State.expectsHeld_setKeylen (d : Byte) : (s.setKeylen d).expectsHeld = s.expectsHeld := rfl

/-! `State.setBlklen` -/
@[simp] theorem State.keybuf_setBlklen (d : Byte) : (s.setBlklen d).keybuf = s.keybuf := rfl
@[simp] theorem State.blk_setBlklen (d : Byte) : (s.setBlklen d).blk = s.blk := rfl
@[simp] theorem State.sched_setBlklen (d : Byte) : (s.setBlklen d).sched = s.sched := rfl
@[simp] theorem State.keylen_setBlklen (d : Byte) : (s.setBlklen d).keylen = s.keylen := rfl
@[simp] theorem State.blklen_setBlklen (d : Byte) : (s.setBlklen d).blklen = d := rfl
@[simp] theorem State.schedlen_setBlklen (d : Byte) : (s.setBlklen d).schedlen = s.schedlen := rfl
@[simp] theorem State.st_setBlklen (d : Byte) : (s.setBlklen d).st = s.st := rfl
@[simp] theorem State.err_setBlklen (d : Byte) : (s.setBlklen d).err = s.err := rfl
@[simp] theorem State.pend_setBlklen (d : Byte) : (s.setBlklen d).pend = s.pend := rfl
@[simp] theorem State.latencyLeft_setBlklen (d : Byte) : (s.setBlklen d).latencyLeft = s.latencyLeft := rfl
@[simp] theorem State.draws_setBlklen (d : Byte) : (s.setBlklen d).draws = s.draws := rfl
@[simp] theorem State.resetIn_setBlklen (d : Byte) : (s.setBlklen d).resetIn = s.resetIn := rfl
@[simp] theorem State.script_setBlklen (d : Byte) : (s.setBlklen d).script = s.script := rfl
@[simp] theorem State.pos_setBlklen (d : Byte) : (s.setBlklen d).pos = s.pos := rfl
@[simp] theorem State.returned_setBlklen (d : Byte) : (s.setBlklen d).returned = s.returned := rfl
@[simp] theorem State.readFrom_setBlklen (d : Byte) : (s.setBlklen d).readFrom = s.readFrom := rfl
@[simp] theorem State.expectsHeld_setBlklen (d : Byte) : (s.setBlklen d).expectsHeld = s.expectsHeld := rfl

/-! `State.setSchedlen` -/
@[simp] theorem State.keybuf_setSchedlen (d : Byte) : (s.setSchedlen d).keybuf = s.keybuf := rfl
@[simp] theorem State.blk_setSchedlen (d : Byte) : (s.setSchedlen d).blk = s.blk := rfl
@[simp] theorem State.sched_setSchedlen (d : Byte) : (s.setSchedlen d).sched = s.sched := rfl
@[simp] theorem State.keylen_setSchedlen (d : Byte) : (s.setSchedlen d).keylen = s.keylen := rfl
@[simp] theorem State.blklen_setSchedlen (d : Byte) : (s.setSchedlen d).blklen = s.blklen := rfl
@[simp] theorem State.schedlen_setSchedlen (d : Byte) : (s.setSchedlen d).schedlen = d := rfl
@[simp] theorem State.st_setSchedlen (d : Byte) : (s.setSchedlen d).st = s.st := rfl
@[simp] theorem State.err_setSchedlen (d : Byte) : (s.setSchedlen d).err = s.err := rfl
@[simp] theorem State.pend_setSchedlen (d : Byte) : (s.setSchedlen d).pend = s.pend := rfl
@[simp] theorem State.latencyLeft_setSchedlen (d : Byte) : (s.setSchedlen d).latencyLeft = s.latencyLeft := rfl
@[simp] theorem State.draws_setSchedlen (d : Byte) : (s.setSchedlen d).draws = s.draws := rfl
@[simp] theorem State.resetIn_setSchedlen (d : Byte) : (s.setSchedlen d).resetIn = s.resetIn := rfl
@[simp] theorem State.script_setSchedlen (d : Byte) : (s.setSchedlen d).script = s.script := rfl
@[simp] theorem State.pos_setSchedlen (d : Byte) : (s.setSchedlen d).pos = s.pos := rfl
@[simp] theorem State.returned_setSchedlen (d : Byte) : (s.setSchedlen d).returned = s.returned := rfl
@[simp] theorem State.readFrom_setSchedlen (d : Byte) : (s.setSchedlen d).readFrom = s.readFrom := rfl
@[simp] theorem State.expectsHeld_setSchedlen (d : Byte) : (s.setSchedlen d).expectsHeld = s.expectsHeld := rfl

/-! `State.setKeyByte` -/
@[simp] theorem State.keybuf_setKeyByte (n : Fin 16) (d : Byte) : (s.setKeyByte n d).keybuf = s.keybuf.set n.val d := rfl
@[simp] theorem State.blk_setKeyByte (n : Fin 16) (d : Byte) : (s.setKeyByte n d).blk = s.blk := rfl
@[simp] theorem State.sched_setKeyByte (n : Fin 16) (d : Byte) : (s.setKeyByte n d).sched = s.sched := rfl
@[simp] theorem State.keylen_setKeyByte (n : Fin 16) (d : Byte) : (s.setKeyByte n d).keylen = s.keylen := rfl
@[simp] theorem State.blklen_setKeyByte (n : Fin 16) (d : Byte) : (s.setKeyByte n d).blklen = s.blklen := rfl
@[simp] theorem State.schedlen_setKeyByte (n : Fin 16) (d : Byte) : (s.setKeyByte n d).schedlen = s.schedlen := rfl
@[simp] theorem State.st_setKeyByte (n : Fin 16) (d : Byte) : (s.setKeyByte n d).st = s.st := rfl
@[simp] theorem State.err_setKeyByte (n : Fin 16) (d : Byte) : (s.setKeyByte n d).err = s.err := rfl
@[simp] theorem State.pend_setKeyByte (n : Fin 16) (d : Byte) : (s.setKeyByte n d).pend = s.pend := rfl
@[simp] theorem State.latencyLeft_setKeyByte (n : Fin 16) (d : Byte) : (s.setKeyByte n d).latencyLeft = s.latencyLeft := rfl
@[simp] theorem State.draws_setKeyByte (n : Fin 16) (d : Byte) : (s.setKeyByte n d).draws = s.draws := rfl
@[simp] theorem State.resetIn_setKeyByte (n : Fin 16) (d : Byte) : (s.setKeyByte n d).resetIn = s.resetIn := rfl
@[simp] theorem State.script_setKeyByte (n : Fin 16) (d : Byte) : (s.setKeyByte n d).script = s.script := rfl
@[simp] theorem State.pos_setKeyByte (n : Fin 16) (d : Byte) : (s.setKeyByte n d).pos = s.pos := rfl
@[simp] theorem State.returned_setKeyByte (n : Fin 16) (d : Byte) : (s.setKeyByte n d).returned = s.returned := rfl
@[simp] theorem State.readFrom_setKeyByte (n : Fin 16) (d : Byte) : (s.setKeyByte n d).readFrom = s.readFrom := rfl
@[simp] theorem State.expectsHeld_setKeyByte (n : Fin 16) (d : Byte) : (s.setKeyByte n d).expectsHeld = s.expectsHeld := rfl

/-! `State.setBlkByte` -/
@[simp] theorem State.keybuf_setBlkByte (n : Fin 32) (d : Byte) : (s.setBlkByte n d).keybuf = s.keybuf := rfl
@[simp] theorem State.blk_setBlkByte (n : Fin 32) (d : Byte) : (s.setBlkByte n d).blk = s.blk.set n.val d := rfl
@[simp] theorem State.sched_setBlkByte (n : Fin 32) (d : Byte) : (s.setBlkByte n d).sched = s.sched := rfl
@[simp] theorem State.keylen_setBlkByte (n : Fin 32) (d : Byte) : (s.setBlkByte n d).keylen = s.keylen := rfl
@[simp] theorem State.blklen_setBlkByte (n : Fin 32) (d : Byte) : (s.setBlkByte n d).blklen = s.blklen := rfl
@[simp] theorem State.schedlen_setBlkByte (n : Fin 32) (d : Byte) : (s.setBlkByte n d).schedlen = s.schedlen := rfl
@[simp] theorem State.st_setBlkByte (n : Fin 32) (d : Byte) : (s.setBlkByte n d).st = s.st := rfl
@[simp] theorem State.err_setBlkByte (n : Fin 32) (d : Byte) : (s.setBlkByte n d).err = s.err := rfl
@[simp] theorem State.pend_setBlkByte (n : Fin 32) (d : Byte) : (s.setBlkByte n d).pend = s.pend := rfl
@[simp] theorem State.latencyLeft_setBlkByte (n : Fin 32) (d : Byte) : (s.setBlkByte n d).latencyLeft = s.latencyLeft := rfl
@[simp] theorem State.draws_setBlkByte (n : Fin 32) (d : Byte) : (s.setBlkByte n d).draws = s.draws := rfl
@[simp] theorem State.resetIn_setBlkByte (n : Fin 32) (d : Byte) : (s.setBlkByte n d).resetIn = s.resetIn := rfl
@[simp] theorem State.script_setBlkByte (n : Fin 32) (d : Byte) : (s.setBlkByte n d).script = s.script := rfl
@[simp] theorem State.pos_setBlkByte (n : Fin 32) (d : Byte) : (s.setBlkByte n d).pos = s.pos := rfl
@[simp] theorem State.returned_setBlkByte (n : Fin 32) (d : Byte) : (s.setBlkByte n d).returned = s.returned := rfl
@[simp] theorem State.readFrom_setBlkByte (n : Fin 32) (d : Byte) : (s.setBlkByte n d).readFrom = s.readFrom := rfl
@[simp] theorem State.expectsHeld_setBlkByte (n : Fin 32) (d : Byte) : (s.setBlkByte n d).expectsHeld = s.expectsHeld := rfl

/-! `State.setSchedByte` -/
@[simp] theorem State.keybuf_setSchedByte (n : Fin 176) (d : Byte) : (s.setSchedByte n d).keybuf = s.keybuf := rfl
@[simp] theorem State.blk_setSchedByte (n : Fin 176) (d : Byte) : (s.setSchedByte n d).blk = s.blk := rfl
@[simp] theorem State.sched_setSchedByte (n : Fin 176) (d : Byte) : (s.setSchedByte n d).sched = s.sched.set n.val d := rfl
@[simp] theorem State.keylen_setSchedByte (n : Fin 176) (d : Byte) : (s.setSchedByte n d).keylen = s.keylen := rfl
@[simp] theorem State.blklen_setSchedByte (n : Fin 176) (d : Byte) : (s.setSchedByte n d).blklen = s.blklen := rfl
@[simp] theorem State.schedlen_setSchedByte (n : Fin 176) (d : Byte) : (s.setSchedByte n d).schedlen = s.schedlen := rfl
@[simp] theorem State.st_setSchedByte (n : Fin 176) (d : Byte) : (s.setSchedByte n d).st = s.st := rfl
@[simp] theorem State.err_setSchedByte (n : Fin 176) (d : Byte) : (s.setSchedByte n d).err = s.err := rfl
@[simp] theorem State.pend_setSchedByte (n : Fin 176) (d : Byte) : (s.setSchedByte n d).pend = s.pend := rfl
@[simp] theorem State.latencyLeft_setSchedByte (n : Fin 176) (d : Byte) : (s.setSchedByte n d).latencyLeft = s.latencyLeft := rfl
@[simp] theorem State.draws_setSchedByte (n : Fin 176) (d : Byte) : (s.setSchedByte n d).draws = s.draws := rfl
@[simp] theorem State.resetIn_setSchedByte (n : Fin 176) (d : Byte) : (s.setSchedByte n d).resetIn = s.resetIn := rfl
@[simp] theorem State.script_setSchedByte (n : Fin 176) (d : Byte) : (s.setSchedByte n d).script = s.script := rfl
@[simp] theorem State.pos_setSchedByte (n : Fin 176) (d : Byte) : (s.setSchedByte n d).pos = s.pos := rfl
@[simp] theorem State.returned_setSchedByte (n : Fin 176) (d : Byte) : (s.setSchedByte n d).returned = s.returned := rfl
@[simp] theorem State.readFrom_setSchedByte (n : Fin 176) (d : Byte) : (s.setSchedByte n d).readFrom = s.readFrom := rfl
@[simp] theorem State.expectsHeld_setSchedByte (n : Fin 176) (d : Byte) : (s.setSchedByte n d).expectsHeld = s.expectsHeld := rfl

/-! `State.accept` -/
@[simp] theorem State.keybuf_accept (c : Command) : (s.accept c).keybuf = s.keybuf := rfl
@[simp] theorem State.blk_accept (c : Command) : (s.accept c).blk = s.blk := rfl
@[simp] theorem State.sched_accept (c : Command) : (s.accept c).sched = s.sched := rfl
@[simp] theorem State.keylen_accept (c : Command) : (s.accept c).keylen = s.keylen := rfl
@[simp] theorem State.blklen_accept (c : Command) : (s.accept c).blklen = s.blklen := rfl
@[simp] theorem State.schedlen_accept (c : Command) : (s.accept c).schedlen = s.schedlen := rfl
@[simp] theorem State.st_accept (c : Command) : (s.accept c).st = .busy := rfl
@[simp] theorem State.err_accept (c : Command) : (s.accept c).err = 0x00 := rfl
@[simp] theorem State.pend_accept (c : Command) : (s.accept c).pend = some c := rfl
@[simp] theorem State.latencyLeft_accept (c : Command) : (s.accept c).latencyLeft = latency c s.draws := rfl
@[simp] theorem State.draws_accept (c : Command) : (s.accept c).draws = s.draws + 1 := rfl
@[simp] theorem State.resetIn_accept (c : Command) : (s.accept c).resetIn = s.resetIn := rfl
@[simp] theorem State.script_accept (c : Command) : (s.accept c).script = s.script := rfl
@[simp] theorem State.pos_accept (c : Command) : (s.accept c).pos = s.pos := rfl
@[simp] theorem State.returned_accept (c : Command) : (s.accept c).returned = s.returned := rfl
@[simp] theorem State.readFrom_accept (c : Command) : (s.accept c).readFrom = s.readFrom := rfl
@[simp] theorem State.expectsHeld_accept (c : Command) : (s.accept c).expectsHeld = s.expectsHeld := rfl

/-! `State.raise` -/
@[simp] theorem State.keybuf_raise (e : ErrorKind) : (s.raise e).keybuf = s.keybuf := rfl
@[simp] theorem State.blk_raise (e : ErrorKind) : (s.raise e).blk = s.blk := rfl
@[simp] theorem State.sched_raise (e : ErrorKind) : (s.raise e).sched = s.sched := rfl
@[simp] theorem State.keylen_raise (e : ErrorKind) : (s.raise e).keylen = s.keylen := rfl
@[simp] theorem State.blklen_raise (e : ErrorKind) : (s.raise e).blklen = s.blklen := rfl
@[simp] theorem State.schedlen_raise (e : ErrorKind) : (s.raise e).schedlen = s.schedlen := rfl
@[simp] theorem State.st_raise (e : ErrorKind) : (s.raise e).st = .error := rfl
@[simp] theorem State.err_raise (e : ErrorKind) : (s.raise e).err = e.code := rfl
@[simp] theorem State.pend_raise (e : ErrorKind) : (s.raise e).pend = s.pend := rfl
@[simp] theorem State.latencyLeft_raise (e : ErrorKind) : (s.raise e).latencyLeft = s.latencyLeft := rfl
@[simp] theorem State.draws_raise (e : ErrorKind) : (s.raise e).draws = s.draws := rfl
@[simp] theorem State.resetIn_raise (e : ErrorKind) : (s.raise e).resetIn = s.resetIn := rfl
@[simp] theorem State.script_raise (e : ErrorKind) : (s.raise e).script = s.script := rfl
@[simp] theorem State.pos_raise (e : ErrorKind) : (s.raise e).pos = s.pos := rfl
@[simp] theorem State.returned_raise (e : ErrorKind) : (s.raise e).returned = s.returned := rfl
@[simp] theorem State.readFrom_raise (e : ErrorKind) : (s.raise e).readFrom = s.readFrom := rfl
@[simp] theorem State.expectsHeld_raise (e : ErrorKind) : (s.raise e).expectsHeld = s.expectsHeld := rfl

/-! `State.finishExpand` -/
@[simp] theorem State.keybuf_finishExpand (r : Schedule) : (s.finishExpand r).keybuf = s.keybuf := rfl
@[simp] theorem State.blk_finishExpand (r : Schedule) : (s.finishExpand r).blk = s.blk := rfl
@[simp] theorem State.sched_finishExpand (r : Schedule) : (s.finishExpand r).sched = r := rfl
@[simp] theorem State.keylen_finishExpand (r : Schedule) : (s.finishExpand r).keylen = s.keylen := rfl
@[simp] theorem State.blklen_finishExpand (r : Schedule) : (s.finishExpand r).blklen = s.blklen := rfl
@[simp] theorem State.schedlen_finishExpand (r : Schedule) : (s.finishExpand r).schedlen = Config.schedBytes := rfl
@[simp] theorem State.st_finishExpand (r : Schedule) : (s.finishExpand r).st = .done := rfl
@[simp] theorem State.err_finishExpand (r : Schedule) : (s.finishExpand r).err = s.err := rfl
@[simp] theorem State.pend_finishExpand (r : Schedule) : (s.finishExpand r).pend = none := rfl
@[simp] theorem State.latencyLeft_finishExpand (r : Schedule) : (s.finishExpand r).latencyLeft = s.latencyLeft := rfl
@[simp] theorem State.draws_finishExpand (r : Schedule) : (s.finishExpand r).draws = s.draws := rfl
@[simp] theorem State.resetIn_finishExpand (r : Schedule) : (s.finishExpand r).resetIn = s.resetIn := rfl
@[simp] theorem State.script_finishExpand (r : Schedule) : (s.finishExpand r).script = s.script := rfl
@[simp] theorem State.pos_finishExpand (r : Schedule) : (s.finishExpand r).pos = s.pos := rfl
@[simp] theorem State.returned_finishExpand (r : Schedule) : (s.finishExpand r).returned = s.returned := rfl
@[simp] theorem State.readFrom_finishExpand (r : Schedule) : (s.finishExpand r).readFrom = s.readFrom := rfl
@[simp] theorem State.expectsHeld_finishExpand (r : Schedule) : (s.finishExpand r).expectsHeld = s.expectsHeld := rfl

/-! `State.finishEncryptPair` -/
@[simp] theorem State.keybuf_finishEncryptPair (r : Pair) : (s.finishEncryptPair r).keybuf = s.keybuf := rfl
@[simp] theorem State.blk_finishEncryptPair (r : Pair) : (s.finishEncryptPair r).blk = r := rfl
@[simp] theorem State.sched_finishEncryptPair (r : Pair) : (s.finishEncryptPair r).sched = s.sched := rfl
@[simp] theorem State.keylen_finishEncryptPair (r : Pair) : (s.finishEncryptPair r).keylen = s.keylen := rfl
@[simp] theorem State.blklen_finishEncryptPair (r : Pair) : (s.finishEncryptPair r).blklen = s.blklen := rfl
@[simp] theorem State.schedlen_finishEncryptPair (r : Pair) : (s.finishEncryptPair r).schedlen = s.schedlen := rfl
@[simp] theorem State.st_finishEncryptPair (r : Pair) : (s.finishEncryptPair r).st = .done := rfl
@[simp] theorem State.err_finishEncryptPair (r : Pair) : (s.finishEncryptPair r).err = s.err := rfl
@[simp] theorem State.pend_finishEncryptPair (r : Pair) : (s.finishEncryptPair r).pend = none := rfl
@[simp] theorem State.latencyLeft_finishEncryptPair (r : Pair) : (s.finishEncryptPair r).latencyLeft = s.latencyLeft := rfl
@[simp] theorem State.draws_finishEncryptPair (r : Pair) : (s.finishEncryptPair r).draws = s.draws := rfl
@[simp] theorem State.resetIn_finishEncryptPair (r : Pair) : (s.finishEncryptPair r).resetIn = s.resetIn := rfl
@[simp] theorem State.script_finishEncryptPair (r : Pair) : (s.finishEncryptPair r).script = s.script := rfl
@[simp] theorem State.pos_finishEncryptPair (r : Pair) : (s.finishEncryptPair r).pos = s.pos := rfl
@[simp] theorem State.returned_finishEncryptPair (r : Pair) : (s.finishEncryptPair r).returned = s.returned := rfl
@[simp] theorem State.readFrom_finishEncryptPair (r : Pair) : (s.finishEncryptPair r).readFrom = s.readFrom := rfl
@[simp] theorem State.expectsHeld_finishEncryptPair (r : Pair) : (s.finishEncryptPair r).expectsHeld = s.expectsHeld := rfl

/-! `State.resetEvent` -/
@[simp] theorem State.keybuf_resetEvent : (s.resetEvent).keybuf = unwrittenBuffer 16 Offset.keybuf s.draws := rfl
@[simp] theorem State.blk_resetEvent : (s.resetEvent).blk = unwrittenBuffer 32 Offset.blk s.draws := rfl
@[simp] theorem State.sched_resetEvent : (s.resetEvent).sched = unwrittenBuffer 176 Offset.sched s.draws := rfl
@[simp] theorem State.keylen_resetEvent : (s.resetEvent).keylen = 0x00 := rfl
@[simp] theorem State.blklen_resetEvent : (s.resetEvent).blklen = 0x00 := rfl
@[simp] theorem State.schedlen_resetEvent : (s.resetEvent).schedlen = 0x00 := rfl
@[simp] theorem State.st_resetEvent : (s.resetEvent).st = .idle := rfl
@[simp] theorem State.err_resetEvent : (s.resetEvent).err = 0x00 := rfl
@[simp] theorem State.pend_resetEvent : (s.resetEvent).pend = none := rfl
@[simp] theorem State.latencyLeft_resetEvent : (s.resetEvent).latencyLeft = 0 := rfl
@[simp] theorem State.draws_resetEvent : (s.resetEvent).draws = s.draws + 1 := rfl
@[simp] theorem State.resetIn_resetEvent : (s.resetEvent).resetIn = false := rfl
@[simp] theorem State.script_resetEvent : (s.resetEvent).script = s.script := rfl
@[simp] theorem State.pos_resetEvent : (s.resetEvent).pos = s.pos := rfl
@[simp] theorem State.returned_resetEvent : (s.resetEvent).returned = s.returned := rfl
@[simp] theorem State.readFrom_resetEvent : (s.resetEvent).readFrom = s.readFrom := rfl
@[simp] theorem State.expectsHeld_resetEvent : (s.resetEvent).expectsHeld = s.expectsHeld := rfl

/-! `State.passItem` -/
@[simp] theorem State.keybuf_passItem : (s.passItem).keybuf = s.keybuf := rfl
@[simp] theorem State.blk_passItem : (s.passItem).blk = s.blk := rfl
@[simp] theorem State.sched_passItem : (s.passItem).sched = s.sched := rfl
@[simp] theorem State.keylen_passItem : (s.passItem).keylen = s.keylen := rfl
@[simp] theorem State.blklen_passItem : (s.passItem).blklen = s.blklen := rfl
@[simp] theorem State.schedlen_passItem : (s.passItem).schedlen = s.schedlen := rfl
@[simp] theorem State.st_passItem : (s.passItem).st = s.st := rfl
@[simp] theorem State.err_passItem : (s.passItem).err = s.err := rfl
@[simp] theorem State.pend_passItem : (s.passItem).pend = s.pend := rfl
@[simp] theorem State.latencyLeft_passItem : (s.passItem).latencyLeft = s.latencyLeft - 1 := rfl
@[simp] theorem State.draws_passItem : (s.passItem).draws = s.draws := rfl
@[simp] theorem State.resetIn_passItem : (s.passItem).resetIn = s.resetIn := rfl
@[simp] theorem State.script_passItem : (s.passItem).script = s.script.tail := rfl
@[simp] theorem State.pos_passItem : (s.passItem).pos = s.pos + 1 := rfl
@[simp] theorem State.returned_passItem : (s.passItem).returned = s.returned := rfl
@[simp] theorem State.readFrom_passItem : (s.passItem).readFrom = s.nextReadFrom := rfl
@[simp] theorem State.expectsHeld_passItem : (s.passItem).expectsHeld = s.expectsHeld := rfl

/-! `State.stayAtItem` -/
@[simp] theorem State.keybuf_stayAtItem : (s.stayAtItem).keybuf = s.keybuf := rfl
@[simp] theorem State.blk_stayAtItem : (s.stayAtItem).blk = s.blk := rfl
@[simp] theorem State.sched_stayAtItem : (s.stayAtItem).sched = s.sched := rfl
@[simp] theorem State.keylen_stayAtItem : (s.stayAtItem).keylen = s.keylen := rfl
@[simp] theorem State.blklen_stayAtItem : (s.stayAtItem).blklen = s.blklen := rfl
@[simp] theorem State.schedlen_stayAtItem : (s.stayAtItem).schedlen = s.schedlen := rfl
@[simp] theorem State.st_stayAtItem : (s.stayAtItem).st = s.st := rfl
@[simp] theorem State.err_stayAtItem : (s.stayAtItem).err = s.err := rfl
@[simp] theorem State.pend_stayAtItem : (s.stayAtItem).pend = s.pend := rfl
@[simp] theorem State.latencyLeft_stayAtItem : (s.stayAtItem).latencyLeft = s.latencyLeft - 1 := rfl
@[simp] theorem State.draws_stayAtItem : (s.stayAtItem).draws = s.draws := rfl
@[simp] theorem State.resetIn_stayAtItem : (s.stayAtItem).resetIn = s.resetIn := rfl
@[simp] theorem State.script_stayAtItem : (s.stayAtItem).script = s.script := rfl
@[simp] theorem State.pos_stayAtItem : (s.stayAtItem).pos = s.pos := rfl
@[simp] theorem State.returned_stayAtItem : (s.stayAtItem).returned = s.returned := rfl
@[simp] theorem State.readFrom_stayAtItem : (s.stayAtItem).readFrom = s.nextReadFrom := rfl
@[simp] theorem State.expectsHeld_stayAtItem : (s.stayAtItem).expectsHeld = s.expectsHeld := rfl

/-! `State.passExpect` -/
@[simp] theorem State.keybuf_passExpect : (s.passExpect).keybuf = s.keybuf := rfl
@[simp] theorem State.blk_passExpect : (s.passExpect).blk = s.blk := rfl
@[simp] theorem State.sched_passExpect : (s.passExpect).sched = s.sched := rfl
@[simp] theorem State.keylen_passExpect : (s.passExpect).keylen = s.keylen := rfl
@[simp] theorem State.blklen_passExpect : (s.passExpect).blklen = s.blklen := rfl
@[simp] theorem State.schedlen_passExpect : (s.passExpect).schedlen = s.schedlen := rfl
@[simp] theorem State.st_passExpect : (s.passExpect).st = s.st := rfl
@[simp] theorem State.err_passExpect : (s.passExpect).err = s.err := rfl
@[simp] theorem State.pend_passExpect : (s.passExpect).pend = s.pend := rfl
@[simp] theorem State.latencyLeft_passExpect : (s.passExpect).latencyLeft = s.latencyLeft - 1 := rfl
@[simp] theorem State.draws_passExpect : (s.passExpect).draws = s.draws := rfl
@[simp] theorem State.resetIn_passExpect : (s.passExpect).resetIn = s.resetIn := rfl
@[simp] theorem State.script_passExpect : (s.passExpect).script = s.script.tail := rfl
@[simp] theorem State.pos_passExpect : (s.passExpect).pos = s.pos := rfl
@[simp] theorem State.returned_passExpect : (s.passExpect).returned = s.returned := rfl
@[simp] theorem State.readFrom_passExpect : (s.passExpect).readFrom = s.readFrom := rfl
@[simp] theorem State.expectsHeld_passExpect : (s.passExpect).expectsHeld = s.expectsHeld := rfl

/-! `State.checkExpect` -/
@[simp] theorem State.keybuf_checkExpect (l : List Byte) : (s.checkExpect l).keybuf = s.keybuf := rfl
@[simp] theorem State.blk_checkExpect (l : List Byte) : (s.checkExpect l).blk = s.blk := rfl
@[simp] theorem State.sched_checkExpect (l : List Byte) : (s.checkExpect l).sched = s.sched := rfl
@[simp] theorem State.keylen_checkExpect (l : List Byte) : (s.checkExpect l).keylen = s.keylen := rfl
@[simp] theorem State.blklen_checkExpect (l : List Byte) : (s.checkExpect l).blklen = s.blklen := rfl
@[simp] theorem State.schedlen_checkExpect (l : List Byte) : (s.checkExpect l).schedlen = s.schedlen := rfl
@[simp] theorem State.st_checkExpect (l : List Byte) : (s.checkExpect l).st = s.st := rfl
@[simp] theorem State.err_checkExpect (l : List Byte) : (s.checkExpect l).err = s.err := rfl
@[simp] theorem State.pend_checkExpect (l : List Byte) : (s.checkExpect l).pend = s.pend := rfl
@[simp] theorem State.latencyLeft_checkExpect (l : List Byte) : (s.checkExpect l).latencyLeft = s.latencyLeft := rfl
@[simp] theorem State.draws_checkExpect (l : List Byte) : (s.checkExpect l).draws = s.draws := rfl
@[simp] theorem State.resetIn_checkExpect (l : List Byte) : (s.checkExpect l).resetIn = s.resetIn := rfl
@[simp] theorem State.script_checkExpect (l : List Byte) : (s.checkExpect l).script = s.script := rfl
@[simp] theorem State.pos_checkExpect (l : List Byte) : (s.checkExpect l).pos = s.pos := rfl
@[simp] theorem State.returned_checkExpect (l : List Byte) : (s.checkExpect l).returned = s.returned := rfl
@[simp] theorem State.readFrom_checkExpect (l : List Byte) : (s.checkExpect l).readFrom = s.readFrom := rfl
@[simp] theorem State.expectsHeld_checkExpect (l : List Byte) : (s.checkExpect l).expectsHeld = (s.expectsHeld && s.readResult == l) := rfl

/-! `State.withScriptWord` -/
@[simp] theorem State.keybuf_withScriptWord (w : HtWord) : (s.withScriptWord w).keybuf = s.keybuf := rfl
@[simp] theorem State.blk_withScriptWord (w : HtWord) : (s.withScriptWord w).blk = s.blk := rfl
@[simp] theorem State.sched_withScriptWord (w : HtWord) : (s.withScriptWord w).sched = s.sched := rfl
@[simp] theorem State.keylen_withScriptWord (w : HtWord) : (s.withScriptWord w).keylen = s.keylen := rfl
@[simp] theorem State.blklen_withScriptWord (w : HtWord) : (s.withScriptWord w).blklen = s.blklen := rfl
@[simp] theorem State.schedlen_withScriptWord (w : HtWord) : (s.withScriptWord w).schedlen = s.schedlen := rfl
@[simp] theorem State.st_withScriptWord (w : HtWord) : (s.withScriptWord w).st = s.st := rfl
@[simp] theorem State.err_withScriptWord (w : HtWord) : (s.withScriptWord w).err = s.err := rfl
@[simp] theorem State.pend_withScriptWord (w : HtWord) : (s.withScriptWord w).pend = s.pend := rfl
@[simp] theorem State.latencyLeft_withScriptWord (w : HtWord) : (s.withScriptWord w).latencyLeft = (if s.pend = none then s.latencyLeft else max 1 s.latencyLeft) := rfl
@[simp] theorem State.draws_withScriptWord (w : HtWord) : (s.withScriptWord w).draws = s.draws := rfl
@[simp] theorem State.resetIn_withScriptWord (w : HtWord) : (s.withScriptWord w).resetIn = false := rfl
@[simp] theorem State.script_withScriptWord (w : HtWord) : (s.withScriptWord w).script = .word w :: s.script := rfl
@[simp] theorem State.pos_withScriptWord (w : HtWord) : (s.withScriptWord w).pos = s.pos := rfl
@[simp] theorem State.returned_withScriptWord (w : HtWord) : (s.withScriptWord w).returned = s.returned := rfl
@[simp] theorem State.readFrom_withScriptWord (w : HtWord) : (s.withScriptWord w).readFrom = s.readFrom := rfl
@[simp] theorem State.expectsHeld_withScriptWord (w : HtWord) : (s.withScriptWord w).expectsHeld = s.expectsHeld := rfl

end Sys2Proof.Machine
end

