-- ==== Sys2Proof/Laws/Ops.lean ====
section
/-! SUPPORT. What each shared operation can do, said once. -/

namespace Sys2Proof.Machine

theorem unlessBusy_busy {s : State} (h : s.st = .busy) (f : State → State) : s.unlessBusy f = s := by
  simp [State.unlessBusy, h]

theorem unlessBusy_free {s : State} (h : s.st ≠ .busy) (f : State → State) : s.unlessBusy f = f s := by
  simp [State.unlessBusy, h]

/-- An accept step rejects with the error its check names, or accepts. -/
theorem acceptOrRaise_cases (s : State) (c : Command) (check : Option ErrorKind) :
    (∃ e, check = some e ∧ s.acceptOrRaise c check = s.raise e) ∨
    (check = none ∧ s.acceptOrRaise c check = s.accept c) := by
  cases check with
  | none => exact .inr ⟨rfl, rfl⟩
  | some e => exact .inl ⟨e, rfl, rfl⟩

theorem expandCheck_none (s : State) : expandCheck s = none ↔ s.keylen = 16 := by
  simp [expandCheck]

theorem encryptPairCheck_none (s : State) : encryptPairCheck s = none ↔ s.blklen = 32 ∧ s.schedlen = 0xB0 := by
  unfold encryptPairCheck
  split
  · simp_all
  · split <;> simp_all

/-- A write of a code to `CMD` takes the accept step of its command, or changes nothing. -/
theorem issueCommand_cases (c : Byte) (s : State) :
    (c = 0x01 ∧ issueCommand c s = expandAccept s) ∨
    (c = 0x02 ∧ issueCommand c s = encryptPairAccept s) ∨
    (c ≠ 0x01 ∧ c ≠ 0x02 ∧ issueCommand c s = s) := by
  unfold issueCommand
  split
  · exact .inl ⟨‹_›, rfl⟩
  · split
    · exact .inr (.inl ⟨‹_›, rfl⟩)
    · exact .inr (.inr ⟨‹_›, ‹_›, rfl⟩)

@[simp] theorem cellOf_cmd : cellOf 0#12 = .cmd := rfl
@[simp] theorem cellOf_status : cellOf 1#12 = .status := rfl
@[simp] theorem cellOf_err : cellOf 2#12 = .err := rfl
@[simp] theorem cellOf_keylen : cellOf 4#12 = .keylen := rfl
@[simp] theorem cellOf_blklen : cellOf 5#12 = .blklen := rfl
@[simp] theorem cellOf_schedlen : cellOf 6#12 = .schedlen := rfl

/-- An offset at or above 0x010 is none of the control registers. -/
theorem ne_register_of_ge {a : Addr} (h : 0x010 ≤ a.toNat) :
    a ≠ Offset.cmd ∧ a ≠ Offset.status ∧ a ≠ Offset.err ∧ a ≠ Offset.keylen ∧ a ≠ Offset.blklen ∧ a ≠ Offset.schedlen := by
  refine ⟨?_, ?_, ?_, ?_, ?_, ?_⟩ <;> (rintro rfl; revert h; decide)

theorem cellOf_keybuf {a : Addr} (h : 0x010 ≤ a.toNat ∧ a.toNat ≤ 0x01F) :
    cellOf a = .keybuf ⟨a.toNat - 0x010, by omega⟩ := by
  obtain ⟨h0, h1, h2, h3, h4, h5⟩ := ne_register_of_ge h.1
  simp only [cellOf, h0, h1, h2, h3, h4, h5, if_false, dif_pos h]

theorem cellOf_blk {a : Addr} (h : 0x020 ≤ a.toNat ∧ a.toNat ≤ 0x03F) :
    cellOf a = .blk ⟨a.toNat - 0x020, by omega⟩ := by
  obtain ⟨h0, h1, h2, h3, h4, h5⟩ := ne_register_of_ge (a := a) (by omega)
  have hk : ¬(0x010 ≤ a.toNat ∧ a.toNat ≤ 0x01F) := by omega
  simp only [cellOf, h0, h1, h2, h3, h4, h5, if_false, dif_neg hk, dif_pos h]

theorem cellOf_sched {a : Addr} (h : 0x100 ≤ a.toNat ∧ a.toNat ≤ 0x1AF) :
    cellOf a = .sched ⟨a.toNat - 0x100, by omega⟩ := by
  obtain ⟨h0, h1, h2, h3, h4, h5⟩ := ne_register_of_ge (a := a) (by omega)
  have hk : ¬(0x010 ≤ a.toNat ∧ a.toNat ≤ 0x01F) := by omega
  have hb : ¬(0x020 ≤ a.toNat ∧ a.toNat ≤ 0x03F) := by omega
  simp only [cellOf, h0, h1, h2, h3, h4, h5, if_false, dif_neg hk, dif_neg hb, dif_pos h]

theorem cellOf_reserved {a : Addr} (h : ReservedOffset a) : cellOf a = .reserved := by
  have h0 : a ≠ Offset.cmd ∧ a ≠ Offset.status ∧ a ≠ Offset.err ∧ a ≠ Offset.keylen ∧ a ≠ Offset.blklen ∧
      a ≠ Offset.schedlen := by
    refine ⟨?_, ?_, ?_, ?_, ?_, ?_⟩ <;> (rintro rfl; revert h; decide)
  obtain ⟨h0, h1, h2, h3, h4, h5⟩ := h0
  have hk : ¬(0x010 ≤ a.toNat ∧ a.toNat ≤ 0x01F) := by omega
  have hb : ¬(0x020 ≤ a.toNat ∧ a.toNat ≤ 0x03F) := by omega
  have hs : ¬(0x100 ≤ a.toNat ∧ a.toNat ≤ 0x1AF) := by omega
  simp only [cellOf, h0, h1, h2, h3, h4, h5, if_false, dif_neg hk, dif_neg hb, dif_neg hs]

/-- A read of `STATUS`: the status byte goes to the host, nothing else changes. -/
theorem exec_rd_status (s : State) : exec (.rd Offset.status) s = .next (s.pushReturned s.st.statusByte) := rfl

/-- The same with the offset as a numeral, for goals in which it has been evaluated. -/
@[simp] theorem exec_rd_one (s : State) : exec (.rd 1#12) s = .next (s.pushReturned s.st.statusByte) := rfl

/-- A read of any offset: one byte goes to the host, and a free value may be drawn. -/
theorem exec_rd_eq (a : Addr) (s : State) :
    exec (.rd a) s =
      .next { s with returned := s.returned ++ [readCell s (cellOf a)],
                     draws := if readDraws s (cellOf a) then s.draws + 1 else s.draws } := by
  by_cases h : readDraws s (cellOf a) = true <;> simp [exec, execRd, h, State.pushReturned, State.draw]

/-- Which words begin a read. -/
theorem beginsRead_word {w : HtWord} {i : Instr} (joins : Bool) (h : decode w = .ok i) :
    (HostItem.word w joins).beginsRead = (isRead i && !joins) := by
  simp [HostItem.beginsRead, h]

@[simp] theorem beginsRead_wait : HostItem.wait.beginsRead = true := rfl
@[simp] theorem beginsRead_expect (bytes : List Byte) : (HostItem.expect bytes).beginsRead = false := rfl

theorem nextReadFrom_cons {s : State} {item : HostItem} {rest : List HostItem} (h : s.script = item :: rest) :
    s.nextReadFrom = if item.beginsRead then s.returned.length else s.readFrom := by
  simp [State.nextReadFrom, h]

/-- A byte returned joins the result of the last read. -/
theorem readResult_pushReturned {s : State} (b : Byte) (h : s.readFrom ≤ s.returned.length) :
    (s.pushReturned b).readResult = s.readResult ++ [b] := by
  simp [State.readResult, State.pushReturned, List.drop_append_of_le_length h]

end Sys2Proof.Machine
end

