-- ==== Sys2Proof/Laws/PerInstr.lean ====
section
/-! SUPPORT. Facts about the instructions as syntax, one lemma for each constructor. -/

namespace Sys2Proof.Laws.TableRow

/-- The word of an instruction matches its row of spec/opcode_table.json: the row's mask keeps the row's match. The two
command rows are `CMD8` bytes, so there it is the command byte, and the word is the one the row's source names. -/
def Statement : Instr → Prop
  | .rd addr => encode (.rd addr) &&& 0xF000FF = 0x000000
  | .wr addr data => encode (.wr addr data) &&& 0xF00000 = 0x100000
  | .expand => htData (encode .expand) &&& 0xFF = 0x01 ∧ encode .expand = 0x100001
  | .encryptPair => htData (encode .encryptPair) &&& 0xFF = 0x02 ∧ encode .encryptPair = 0x100002

theorem rd (addr : Addr) : Statement (.rd addr) := by
  refine BitVec.eq_of_getLsbD_eq fun k hk => ?_
  simp only [encode, htWord, BitVec.getLsbD_and, BitVec.getLsbD_append]
  interval_cases k <;> simp

theorem wr (addr : Addr) (data : Byte) : Statement (.wr addr data) := by
  refine BitVec.eq_of_getLsbD_eq fun k hk => ?_
  simp only [encode, htWord, BitVec.getLsbD_and, BitVec.getLsbD_append]
  interval_cases k <;> simp

theorem expand : Statement .expand := by simp only [Statement]; decide

theorem encryptPair : Statement .encryptPair := by simp only [Statement]; decide

end Sys2Proof.Laws.TableRow
end

