-- ==== Sys2Proof/Laws/Step.lean ====
section
/-! SUPPORT. What the next move and one step can be, said once. -/

namespace Sys2Proof.Machine

/-- What each host move says of the script. -/
theorem hostMove_cases (s : State) :
    (s.script = [] ∧ hostMove s = .over) ∨
    (∃ w joins rest i, s.script = .word w joins :: rest ∧ decode w = .ok i ∧ hostMove s = .transact i) ∨
    (∃ w joins rest e, s.script = .word w joins :: rest ∧ decode w = .error e ∧ hostMove s = .reserved w e) ∨
    (∃ rest, s.script = .wait :: rest ∧ hostMove s = .poll) ∨
    (∃ bytes rest, s.script = .expect bytes :: rest ∧ hostMove s = .expect bytes) := by
  unfold hostMove
  split
  · exact .inl ⟨‹_›, rfl⟩
  · next w joins rest h =>
    split
    · exact .inr (.inl ⟨w, joins, rest, _, h, ‹_›, rfl⟩)
    · exact .inr (.inr (.inl ⟨w, joins, rest, _, h, ‹_›, rfl⟩))
  · exact .inr (.inr (.inr (.inl ⟨_, ‹_›, rfl⟩)))
  · exact .inr (.inr (.inr (.inr ⟨_, _, ‹_›, rfl⟩)))

/-- The reset input goes first, then a completion that is due, then the host. -/
theorem nextMove_cases (s : State) :
    (s.resetIn = true ∧ nextMove s = .reset) ∨
    (s.resetIn = false ∧ ∃ c, s.pend = some c ∧ (s.latencyLeft = 0 ∨ s.script = []) ∧ nextMove s = .complete c) ∨
    (s.resetIn = false ∧ (s.pend = none ∨ (s.latencyLeft ≠ 0 ∧ s.script ≠ [])) ∧ nextMove s = hostMove s) := by
  unfold nextMove
  cases hr : s.resetIn with
  | true => exact .inl ⟨rfl, rfl⟩
  | false =>
    cases hp : s.pend with
    | none => exact .inr (.inr ⟨rfl, .inl rfl, rfl⟩)
    | some c =>
      by_cases hd : s.latencyLeft = 0 ∨ s.script = []
      · exact .inr (.inl ⟨rfl, c, rfl, hd, by simp [hd]⟩)
      · exact .inr (.inr ⟨rfl, .inr (by simpa using hd), by simp [hd]⟩)

/-- What one step that answers `t` has done. -/
theorem step_cases {s t : State} (h : step s = .next t) :
    (nextMove s = .reset ∧ t = s.resetEvent) ∨
    (∃ c, nextMove s = .complete c ∧ t = complete c s) ∨
    (∃ i, nextMove s = .transact i ∧ exec i s.passItem = .next t) ∨
    (nextMove s = .poll ∧ exec (.rd Offset.status) s.passPoll = .next t) ∨
    (∃ bytes, nextMove s = .expect bytes ∧ t = s.passExpect.checkExpect bytes) ∨
    (nextMove s = .over ∧ t = s) := by
  unfold step at h
  split at h <;> simp_all

/-- What `exec` answers, by instruction: the inversion of the dispatch. -/
theorem exec_cases {i : Instr} {s t : State} (h : exec i s = .next t) :
    (∃ a, i = .rd a ∧ execRd a s = .next t) ∨
    (∃ a d, i = .wr a d ∧ execWr a d s = .next t) ∨
    (i = .expand ∧ t = s.unlessBusy expandAccept) ∨
    (i = .encryptPair ∧ t = s.unlessBusy encryptPairAccept) := by
  cases i with
  | rd a => exact .inl ⟨a, rfl, h⟩
  | wr a d => exact .inr (.inl ⟨a, d, rfl, h⟩)
  | expand => exact .inr (.inr (.inl ⟨rfl, by simpa [exec, execExpand] using h.symm⟩))
  | encryptPair => exact .inr (.inr (.inr ⟨rfl, by simpa [exec, execEncryptPair] using h.symm⟩))

/-- Where the host stands: its script, position and records, without the bytes returned. -/
abbrev State.SameHost (s t : State) : Prop :=
  t.resetIn = s.resetIn ∧ t.script = s.script ∧ t.pos = s.pos ∧ t.readFrom = s.readFrom ∧ t.expectsHeld = s.expectsHeld

theorem acceptOrRaise_keeps_host (s : State) (c : Command) (check : Option ErrorKind) :
    s.SameHost (s.acceptOrRaise c check) ∧ (s.acceptOrRaise c check).returned = s.returned := by
  obtain ⟨e, _, h⟩ | ⟨_, h⟩ := acceptOrRaise_cases s c check <;> simp [h, State.SameHost]

theorem writeCell_keeps_host (d : Byte) (s : State) (c : Cell) :
    s.SameHost (writeCell d s c) ∧ (writeCell d s c).returned = s.returned := by
  cases c with
  | cmd =>
    obtain ⟨_, h⟩ | ⟨_, h⟩ | ⟨_, _, h⟩ := issueCommand_cases d s <;> rw [writeCell, h]
    · exact acceptOrRaise_keeps_host s .expand _
    · exact acceptOrRaise_keeps_host s .encryptPair _
    · simp [State.SameHost]
  | _ => simp [writeCell, State.SameHost]

theorem unlessBusy_keeps_host {s : State} {f : State → State}
    (h : s.SameHost (f s) ∧ (f s).returned = s.returned) :
    s.SameHost (s.unlessBusy f) ∧ (s.unlessBusy f).returned = s.returned := by
  by_cases hb : s.st = .busy
  · simp [unlessBusy_busy hb, State.SameHost]
  · rwa [unlessBusy_free hb]

/-- No instruction moves the host: only a `RD` changes anything of its side, by one byte returned. -/
theorem exec_keeps_host {i : Instr} {s t : State} (h : exec i s = .next t) :
    s.SameHost t ∧ (isRead i = false → t.returned = s.returned) := by
  obtain ⟨a, rfl, hx⟩ | ⟨a, d, rfl, hx⟩ | ⟨rfl, rfl⟩ | ⟨rfl, rfl⟩ := exec_cases h
  · rw [exec_rd_eq] at h
    cases h
    simp [isRead, State.SameHost]
  · cases hx
    exact (unlessBusy_keeps_host (writeCell_keeps_host d s _)).imp id fun h _ => h
  · exact (unlessBusy_keeps_host (acceptOrRaise_keeps_host s .expand _)).imp id fun h _ => h
  · exact (unlessBusy_keeps_host (acceptOrRaise_keeps_host s .encryptPair _)).imp id fun h _ => h

/-- A run of any machine goes on from a first step that answers. -/
theorem core_run_succ (M : Host.Core) (k : Nat) (s t : M.State) (h : M.step s = .next t) :
    M.run (k + 1) s = M.run k t := by
  rw [Host.Core.run, h]

/-- Where `run` answers, the host's run of this machine answers the same. -/
theorem core_run_of_run {k : Nat} {s t : State} (h : run k s = .next t) :
    Host.Core.run Sys2Proof.core k s = Host.Outcome.next t := by
  induction k generalizing s with
  | zero => exact h
  | succ k ih =>
    unfold run at h
    split at h
    · next u hu => exact (core_run_succ Sys2Proof.core k s u hu).trans (ih h)
    · cases h
    · cases h

/-- A run goes on from a first step that answers. -/
theorem run_succ_of_step {s t : State} (k : Nat) (h : step s = .next t) : run (k + 1) s = run k t := by
  simp [run, h]

/-- A run that answers has a first step that answers. -/
theorem step_of_run_succ {k : Nat} {s t : State} (h : run (k + 1) s = .next t) :
    ∃ u, step s = .next u ∧ run k u = .next t := by
  unfold run at h
  split at h
  · exact ⟨_, ‹_›, h⟩
  · cases h
  · cases h

end Sys2Proof.Machine
end

