-- ==== Sys2Proof/Machine/ScriptText.lean ====
section
/-! DEFINITION. The text of a script: comments, numbers, symbols, byte strings and lines, read to ScriptLine (30_encoding.md R101). What R101 leaves open of the text is DESIGN CHOICE (unsafe), log entry 16. -/

namespace Sys2Proof.Machine

/-- The value of a digit below `base`, for hexadecimal in either case. -/
def digitValue (base : Nat) (c : Char) : Option Nat :=
  let n := c.toNat
  let v := if 48 ≤ n ∧ n ≤ 57 then n - 48
    else if 97 ≤ n ∧ n ≤ 102 then n - 87
    else if 65 ≤ n ∧ n ≤ 70 then n - 55
    else base
  if v < base then some v else none

/-- A non-empty string of digits. -/
def digits (base : Nat) : List Char → Option Nat
  | [] => none
  | cs => cs.foldlM (fun n c => (digitValue base c).map fun d => n * base + d) 0

/-- A number: hexadecimal with `0x`, or decimal (R101). -/
def number : List Char → Option Nat
  | '0' :: 'x' :: cs => digits 16 cs
  | cs => digits 10 cs

/-- A byte string in one word: pairs of hexadecimal digits without prefix, lowest offset first (R101). -/
def byteString : List Char → Option (List Byte)
  | [] => some []
  | [_] => none
  | c :: d :: cs =>
    match digits 16 [c, d], byteString cs with
    | some v, some bs => some (BitVec.ofNat 8 v :: bs)
    | _, _ => none

/-- A byte string in several words, each of whole pairs: white space or a comma may stand between two bytes and never
inside a pair (DESIGN CHOICE (unsafe), log entry 16). -/
def byteStrings (words : List (List Char)) : Option (List Byte) := (words.mapM byteString).map List.flatten

/-- The symbolic addresses but the round keys' (R101). -/
def addressSymbols : List (List Char × Addr) :=
  [("CMD".toList, Offset.cmd), ("STATUS".toList, Offset.status), ("ERR".toList, Offset.err),
   ("KEYLEN".toList, Offset.keylen), ("BLKLEN".toList, Offset.blklen), ("SCHEDLEN".toList, Offset.schedlen),
   ("KEYBUF".toList, Offset.keybuf), ("BLK".toList, Offset.blk), ("BLKA".toList, Offset.blk),
   ("BLKB".toList, Offset.blkB), ("SCHED".toList, Offset.sched)]

/-- The symbolic addresses of the round keys, `0x100 + 16k` (R101). The names are these eleven: a numeral with leading
zeros, as in `RK00`, is none (DESIGN CHOICE (unsafe), log entry 16). -/
def roundKeySymbols : List (List Char × Addr) :=
  [("RK0".toList, 0x100), ("RK1".toList, 0x110), ("RK2".toList, 0x120), ("RK3".toList, 0x130),
   ("RK4".toList, 0x140), ("RK5".toList, 0x150), ("RK6".toList, 0x160), ("RK7".toList, 0x170),
   ("RK8".toList, 0x180), ("RK9".toList, 0x190), ("RK10".toList, 0x1A0)]

/-- The value of an address symbol (R101). -/
def addressSymbol (cs : List Char) : Option Nat :=
  ((addressSymbols ++ roundKeySymbols).lookup cs).map fun a => a.toNat

/-- The symbolic values of `ST` (R101). -/
def stSymbols : List (List Char × St) :=
  [("IDLE".toList, .idle), ("BUSY".toList, .busy), ("DONE".toList, .done), ("ERROR".toList, .error)]

/-- An offset: a number, a symbol, or `NAME+n` (R101). An offset has 12 bits (R91). -/
def offset (cs : List Char) : Option Addr :=
  let name := cs.takeWhile (· != '+')
  let value :=
    match cs.dropWhile (· != '+') with
    | [] => (number cs).orElse fun _ => addressSymbol cs
    | _ :: n =>
      match addressSymbol name, number n with
      | some a, some k => some (a + k)
      | _, _ => none
  match value with
  | some v => if v < 4096 then some (BitVec.ofNat 12 v) else none
  | none => none

/-- A byte, the data of a `WR`: a number below 256 (R101). R101 gives the `ST` symbols a value and no place; here they are
no data of a `WR` (DESIGN CHOICE (unsafe), log entry 16). -/
def byteValue (cs : List Char) : Option Byte :=
  match number cs with
  | some v => if v < 256 then some (BitVec.ofNat 8 v) else none
  | none => none

/-- The value of an `EXPECT`: an `ST` symbol, one number with `0x`, or a byte string (R101, R108). It is the one place
where an `ST` symbol stands (DESIGN CHOICE (unsafe), log entry 16). -/
def expected : List (List Char) → Option (List Byte)
  | [word] =>
    match stSymbols.lookup word, word with
    | some st, _ => some [st.statusByte]
    | none, '0' :: 'x' :: _ => (byteValue word).map fun b => [b]
    | none, _ => byteString word
  | words => byteStrings words

/-- What stands before the comment (R101). -/
def withoutComment (cs : List Char) : List Char := cs.takeWhile (· != ';')

/-- The words of a line, at white space and commas; `word` is the word being read, last character first. -/
def wordsFrom (word : List Char) : List Char → List (List Char)
  | [] => if word.isEmpty then [] else [word.reverse]
  | c :: cs =>
    if c = ' ' ∨ c = '\t' ∨ c = ',' then
      if word.isEmpty then wordsFrom [] cs else word.reverse :: wordsFrom [] cs
    else wordsFrom (c :: word) cs

/-- A line from its words (R101): none where the words are no line. -/
def lineOfWords : List (List Char) → Option ScriptLine
  | [] => none
  | mnemonic :: operands =>
    if mnemonic = "RD".toList then
      match operands with
      | [a] => (offset a).map .rd
      | _ => none
    else if mnemonic = "WR".toList then
      match operands with
      | [a, d] =>
        match offset a, byteValue d with
        | some a, some d => some (.wr a d)
        | _, _ => none
      | _ => none
    else if mnemonic = "LDKEY".toList then (byteStrings operands).map .ldkey
    else if mnemonic = "LDBLK".toList then (byteStrings operands).map .ldblk
    else if mnemonic = "LDSCHED".toList then (byteStrings operands).map .ldsched
    else if mnemonic = "EXPECT".toList then (expected operands).map .expect
    else if operands ≠ [] then none
    else if mnemonic = "EXPAND".toList then some .expand
    else if mnemonic = "ENCRYPT_PAIR".toList then some .encryptPair
    else if mnemonic = "WAIT".toList then some .wait
    else if mnemonic = "RDBLK".toList then some .rdblk
    else if mnemonic = "RDSCHED".toList then some .rdsched
    else if mnemonic = "RDKEY".toList then some .rdkey
    else none

/-- The lines of a script, one transaction or pseudo-instruction a line (R101); a line that holds only a comment says
nothing. None where some line is no line of the syntax or is not well formed: a load of more than 255 bytes (DESIGN CHOICE
(unsafe) for `LDBLK` and `LDSCHED`, log entry 18) and an `EXPECT` without a value are no lines. -/
def parseScript (text : List String) : Option (List ScriptLine) :=
  (text.map fun line => wordsFrom [] (withoutComment line.toList)).filter (· ≠ []) |>.mapM fun words => (lineOfWords words).filter ScriptLine.wellFormed

end Sys2Proof.Machine
end

