-- ==== Sys2Proof/Tests/Slice0.lean ====
section
/-! SUPPORT. The model's own tests, their expected values from the spec's text and its worked examples, and for each statement with hypotheses a witness that they can be met together. -/

namespace Sys2Proof.Tests
open Sys2Proof Sys2Proof.Machine

/-- A 16-byte string written as one number, lowest offset first. -/
def block (n : Nat) : Block := Vector.ofFn fun k => BitVec.ofNat 8 (n >>> (8 * (15 - k.val)))

/-- A byte string as one number, lowest offset first. -/
def asNat {n : Nat} (v : Vector Byte n) : Nat := v.toList.foldl (fun a b => 256 * a + b.toNat) 0

/-- Key K1 and plaintext A of 95_test_vectors.md. -/
def keyK1 : Block := block 0x000102030405060708090a0b0c0d0e0f
def plainA : Block := block 0x00112233445566778899aabbccddeeff

/-- A core at rest whose host has declared every length. -/
def ready : State := { State.reset with keylen := 16, blklen := 32, schedlen := 176 }

/-- A core with a command in flight. -/
def running (c : Command) (n : Nat) : State := { ready with st := .busy, pend := some c, latencyLeft := n }

/-- The schedule of key K1, one round key a row (95_test_vectors.md section 2.1). -/
def roundKeysK1 : List Nat :=
  [0x000102030405060708090a0b0c0d0e0f,
   0xd6aa74fdd2af72fadaa678f1d6ab76fe,
   0xb692cf0b643dbdf1be9bc5006830b3fe,
   0xb6ff744ed2c2c9bf6c590cbf0469bf41,
   0x47f7f7bc95353e03f96c32bcfd058dfd,
   0x3caaa3e8a99f9deb50f3af57adf622aa,
   0x5e390f7df7a69296a7553dc10aa31f6b,
   0x14f9701ae35fe28c440adf4d4ea9c026,
   0x47438735a41c65b9e016baf4aebf7ad2,
   0x549932d1f08557681093ed9cbe2c974e,
   0x13111d7fe3944a17f307a78b4d2b30c5]

/-- The schedule of key K1 as 176 bytes. -/
def schedK1 : Schedule :=
  Vector.ofFn fun n => BitVec.ofNat 8 (roundKeysK1.getD (n.val / 16) 0 >>> (8 * (15 - n.val % 16)))

/-- A core whose schedule is the one of its key. -/
def scheduled : State := { running .encryptPair 0 with keybuf := keyK1, sched := schedK1 }

/-- A test of the next state. -/
def after (o : Host.Outcome State Fault Refusal) (p : State → Bool) : Bool :=
  match o with
  | .next t => p t
  | .fault _ => false
  | .refused _ => false

/-! Words written out from 30_encoding.md R91 to R95 and 95_test_vectors.md section 7.1 -/

/-- kind 0000, addr 000000000001, data 00000000. -/
theorem test_decode_rd_status : decode 0b000000000000000100000000 = .ok (.rd 0x001) := by decide
/-- kind 0000, addr 000110101111, data 00000000. -/
theorem test_decode_rd_sched_175 : decode 0b000000011010111100000000 = .ok (.rd 0x1AF) := by decide
/-- kind 0001, addr 000000000110, data 10110000. -/
theorem test_decode_wr_schedlen : decode 0b000100000000011010110000 = .ok (.wr 0x006 0xB0) := by decide
/-- kind 0001, addr 000000110000, data 00110010. -/
theorem test_decode_wr_blkB : decode 0b000100000011000000110010 = .ok (.wr 0x030 0x32) := by decide
/-- kind 0001, addr 000000000000, data 00000001. -/
theorem test_decode_expand : decode 0b000100000000000000000001 = .ok .expand := by decide
/-- kind 0001, addr 000000000000, data 00000010. -/
theorem test_decode_encrypt_pair : decode 0b000100000000000000000010 = .ok .encryptPair := by decide
/-- A reserved code is still a `WR` to `CMD`. -/
theorem test_decode_reserved_code : decode 0b000100000000000011111111 = .ok (.wr 0x000 0xFF) := by decide
theorem test_decode_read_with_data : decode 0b000000000000000100000001 = .error .readWithData := by decide
theorem test_decode_reserved_kind : decode 0b001000000000000000000000 = .error .reservedKind := by decide
theorem test_command_bytes : decodeTableWord 8 0b00000001 = some .expand ∧ decodeTableWord 8 0b00000010 = some .encryptPair ∧
    decodeTableWord 8 0b00000011 = none ∧ decodeTableWord 8 0b00000000 = none := by decide

/-! Well-formedness: the one check, and what passes it -/

theorem test_write_of_expand_code_is_ill_formed : (Instr.wr 0x000 0x01).wellFormed = false := by decide
theorem test_write_of_encrypt_code_is_ill_formed : (Instr.wr 0x000 0x02).wellFormed = false := by decide
theorem test_write_elsewhere_is_well_formed : (Instr.wr 0x010 0x01).wellFormed = true := by decide
set_option maxRecDepth 2000 in
theorem test_load_of_256_bytes_is_ill_formed : (ScriptLine.ldsched (List.replicate 256 0x00)).wellFormed = false := by decide

/-! The instructions: 95_test_vectors.md section 7 -/

theorem test_rd_length_while_busy :
    after (exec (.rd 0x004) (running .expand 3)) (fun t => t.returned == [0x10] && t.draws == 1) = true := by decide
theorem test_rd_buffer_while_busy_draws :
    after (exec (.rd 0x03F) (running .expand 3)) (fun t => t.returned.length == 1 && t.draws == 2) = true := by decide
theorem test_wr_lane_boundary :
    after (exec (.wr 0x030 0x22) State.reset) (fun t => t.blk[16] == 0x22) = true := by decide
theorem test_wr_status_is_ignored :
    after (exec (.wr 0x001 0xFF) ready) (fun t => t.st == .idle && t.err == 0x00) = true := by decide
theorem test_expand_rejects_17_bytes :
    after (exec .expand { ready with keylen := 17 }) (fun t => t.st == .error && t.err == 0x01 && t.schedlen == 176) = true := by
  decide
theorem test_expand_completes :
    after (step (running .expand 0)) (fun t => t.st == .done && t.schedlen == 0xB0 && t.pend == none) = true := by decide
theorem test_encrypt_pair_block_length_first :
    after (exec .encryptPair State.reset) (fun t => t.st == .error && t.err == 0x02) = true := by decide
theorem test_encrypt_pair_160_byte_schedule :
    after (exec .encryptPair { ready with schedlen := 160 }) (fun t => t.st == .error && t.err == 0x03) = true := by decide

/-! The functions: 95_test_vectors.md sections 2, 3, 6 -/

theorem test_xtime : [xtime 0x7f, xtime 0x80, xtime 0x81, xtime 0xff] = [0xfe, 0x1b, 0x19, 0xe5] := by decide
theorem test_gmul : [gmul 0x57 0x83, gmul 0x57 0x13, gmul 0x02 0x8d] = [0xc1, 0xfe, 0x01] := by decide
theorem test_sbox : [sbox 0x00, sbox 0x53, sbox 0x80, sbox 0xff] = [0x63, 0xed, 0xcd, 0x16] := by decide
theorem test_word_operations :
    rotWord 0x09cf4f3c = 0xcf4f3c09 ∧ subWord 0xcf4f3c09 = 0x8a84eb01 ∧ rconXor 0x5da515d2 9 = 0x46a515d2 := by decide
theorem test_next_word_36 :
    nextWord (List.replicate 32 0 ++ [0x47438735, 0, 0, 0xaebf7ad2]) 36 = 0x549932d1 := by decide
set_option maxRecDepth 20000 in
theorem test_shift_rows : asNat (shiftRows keyK1) = 0x00050a0f04090e03080d02070c01060b := by decide
set_option maxRecDepth 20000 in
theorem test_mix_columns : asNat (mixColumns (block 0x6353e08c0960e104cd70b751bacad0e7)) = 0x5f72641557f5bc92f7be3b291db9f91a := by
  decide
set_option maxRecDepth 20000 in
/-- D00's known-answer test, one lane. -/
theorem test_known_answer : asNat (encryptBlock plainA (expand keyK1)) = 0x69c4e0d86a7b0430d8cdb78070b4c55a := by decide

/-! Script text: 30_encoding.md R101 -/

theorem test_parse_lines :
    parseScript ["WR KEYBUF+3, 0xAB   ; a byte", "; only a comment", "RD RK10", "EXPECT DONE"] =
      some [.wr 0x013 0xAB, .rd 0x1A0, .expect [0x02]] := by decide
theorem test_parse_load :
    parseScript ["LDKEY 2b7e15", "EXPAND", "WAIT", "EXPECT 0x02"] =
      some [.ldkey [0x2b, 0x7e, 0x15], .expand, .wait, .expect [0x02]] := by decide
theorem test_parse_byte_string_in_words :
    parseScript ["LDKEY 2b 7e15", "EXPECT 01, ff"] = some [.ldkey [0x2b, 0x7e, 0x15], .expect [0x01, 0xff]] ∧
    parseScript ["LDKEY 0 1"] = none := by decide
theorem test_parse_no_such_symbol :
    parseScript ["RD RK00"] = none ∧ parseScript ["RD RK11"] = none ∧ parseScript ["WR KEYLEN, DONE"] = none := by decide
theorem test_expect_needs_a_value : parseScript ["RD ERR", "EXPECT"] = none := by decide
/-- R108: after `RD KEYLEN` and `RD STATUS`, the read before `EXPECT` is the second, whose result is one byte. -/
theorem test_expect_is_of_the_read_before_it :
    after (step { ready with script := [.expect [0x10, 0x00]], returned := [0x10, 0x00], readFrom := 1, pos := 2 })
      (fun t => !t.expectsHeld && t.pos == 2) = true := by decide
theorem test_load_items :
    (ScriptLine.ldkey [0x2b, 0x7e]).items = [.word 0x10102B, .word 0x10117E, .word 0x100402] := by decide

/-! Witnesses: for each statement with hypotheses, a state and operands that meet them -/

theorem witness_DecodeAfterEncode :
    (Instr.rd 0xFFF).wellFormed = true ∧ (Instr.wr 0x000 0x00).wellFormed = true ∧ (Instr.wr 0xFFF 0xFF).wellFormed = true ∧
    Instr.expand.wellFormed = true ∧ Instr.encryptPair.wellFormed = true := by decide

theorem witness_EncodeAfterDecode : decode 0x0FFF00 = .ok (.rd 0xFFF) ∧ decode 0x100003 = .ok (.wr 0x000 0x03) := by decide

theorem witness_ReservedWordsAndReservedAddresses :
    (2 ≤ (htKind 0x200000).toNat ∧ 2 ≤ (htKind 0xFFFFFF).toNat) ∧
    (htKind 0x0FFFFF = 0x0 ∧ htData 0x0FFFFF ≠ 0x00) ∧
    (htKind 0x0FFF00 = 0x0 ∧ htData 0x0FFF00 = 0x00) ∧ htKind 0x1FFFFF = 0x1 ∧
    ([0x003, 0x007, 0x00F, 0x040, 0x0FF, 0x1B0, 0xFFF] : List Addr).all (fun a => decide (ReservedOffset a)) = true ∧
    ([0x000, 0x002, 0x004, 0x006, 0x010, 0x03F, 0x100, 0x1AF] : List Addr).all (fun a => !decide (ReservedOffset a)) = true := by decide

theorem witness_StepRunsTheDecodedTransaction :
    let s := { running .expand 1 with script := [.word 0x000100] }
    s.resetIn = false ∧ (s.pend = none ∨ s.latencyLeft ≠ 0) ∧ s.script = .word 0x000100 :: [] ∧
    decode 0x000100 = .ok (.rd 0x001) := by decide

theorem witness_PlacedInstructionRunsNext :
    (Instr.wr 0x000 0x03).wellFormed = true ∧ decodeCommand 0x01 = .ok .expand ∧ decodeCommand 0x02 = .ok .encryptPair := by
  decide

theorem witness_OnlyReservedWordsStopTheMachine :
    step (State.reset.withScriptWord 0x200000) = .refused (.reservedWord 0x200000 .reservedKind) := rfl

theorem witness_EndOfARun :
    (State.reset.resetIn = false ∧ State.reset.script = [] ∧ State.reset.pend = none) ∧
    ((running .expand 9).resetIn = false ∧ (running .expand 9).script = [] ∧ (running .expand 9).pend = some .expand) := by decide

/-- A reset event on a pending command, a step that leaves it pending, and a step that completes it. -/
theorem witness_OnlyResetAbandonsACommand :
    ({ running .encryptPair 2 with resetIn := true } : State).resetIn = true ∧
    (let s := { running .expand 2 with script := [.wait] }
     s.Running .expand ∧ ∃ t, step s = .next t ∧ t.pend = some .expand) ∧
    ((running .expand 0).Running .expand ∧ ∃ t, step (running .expand 0) = .next t ∧ t.pend = none) :=
  ⟨rfl, ⟨by decide, _, rfl, rfl⟩, ⟨by decide, _, rfl, rfl⟩⟩

theorem witness_CommandsAreRejectedAfterReset :
    let s := { running .expand 2 with resetIn := true }
    s.resetIn = true ∧ step s = .next s.resetEvent := ⟨rfl, rfl⟩

theorem witness_ReadReturnsTheByteOfItsOffset :
    ([0x003, 0x007, 0x00F, 0x040, 0x0FF, 0x1B0, 0xFFF] : List Addr).all (fun a => decide (ReservedOffset a)) = true ∧
    ([0x010, 0x01F, 0x020, 0x03F, 0x100, 0x1AF] : List Addr).all (fun a => decide (BufferOffset a)) = true ∧ (running .expand 1).st = .busy ∧
    (0x010 ≤ (0x010 : Addr).toNat ∧ (0x01F : Addr).toNat ≤ 0x01F) ∧
    (0x020 ≤ (0x020 : Addr).toNat ∧ (0x03F : Addr).toNat ≤ 0x03F) ∧
    (0x100 ≤ (0x100 : Addr).toNat ∧ (0x1AF : Addr).toNat ≤ 0x1AF) ∧ ready.st ≠ .busy := by decide

theorem witness_ReadChangesNoState :
    (∃ t, exec (.rd 0x01F) (running .expand 1) = .next t) ∧ (∃ t, exec (.rd 0x1AF) ready = .next t) ∧
    ¬ (BufferOffset 0x1AF ∧ ready.st = .busy) ∧ ready.st ≠ .busy :=
  ⟨⟨_, rfl⟩, ⟨_, rfl⟩, by decide, by decide⟩

theorem witness_RepeatedReadReturnsTheSameByte :
    ¬ (BufferOffset 0x010 ∧ ready.st = .busy) ∧
    ∃ t u, exec (.rd 0x010) ready = .next t ∧ exec (.rd 0x010) t = .next u :=
  ⟨by decide, _, _, rfl, rfl⟩

theorem witness_WriteActsOnTheCellOfItsOffset :
    (running .expand 1).st = .busy ∧ ready.st ≠ .busy ∧ ReservedOffset 0x00F ∧
    (0x010 ≤ (0x01F : Addr).toNat ∧ (0x01F : Addr).toNat ≤ 0x01F) ∧
    (0x020 ≤ (0x020 : Addr).toNat ∧ (0x020 : Addr).toNat ≤ 0x03F) ∧
    (0x100 ≤ (0x1AF : Addr).toNat ∧ (0x1AF : Addr).toNat ≤ 0x1AF) := by decide

theorem witness_ReservedCommandCodeChangesNothing : (0x00 : Byte) ≠ 0x01 ∧ (0x03 : Byte) ≠ 0x02 ∧ (0xFF : Byte) ≠ 0x02 := by decide

theorem witness_CommandIssueFromAnyRestingStatus :
    ready.st ≠ .busy ∧ St.error ≠ .busy ∧ (0x03 : Byte) ≠ 0x01 ∧ (0x03 : Byte) ≠ 0x02 := by decide

theorem witness_WriteLeavesEveryOtherByteAlone :
    (∃ t, exec (.wr 0x000 0x01) ready = .next t) ∧ (∃ t, exec (.wr 0x01F 0xAA) ready = .next t) ∧
    (∃ t, exec (.wr 0x01F 0xAA) (running .expand 1) = .next t) ∧ (0x01F : Addr) ≠ 0x000 ∧ (0x020 : Addr) ≠ 0x01F :=
  ⟨⟨_, rfl⟩, ⟨_, rfl⟩, ⟨_, rfl⟩, by decide, by decide⟩

theorem witness_ReadReturnsTheByteWritten :
    ready.st ≠ .busy ∧ BufferOffset 0x010 ∧ BufferOffset 0x03F ∧ BufferOffset 0x100 ∧ BufferOffset 0x1AF := by decide

theorem witness_BusyIgnoresEveryWrite : (running .encryptPair 1).st = .busy := by decide

theorem witness_ExpandAcceptStep :
    ready.st ≠ .busy ∧ ready.keylen = 16 ∧ State.reset.st ≠ .busy ∧ State.reset.keylen ≠ 16 := by decide

theorem witness_EncryptPairAcceptStep :
    ready.st ≠ .busy ∧ ready.blklen = 32 ∧ ready.schedlen = 176 ∧ State.reset.blklen ≠ 32 ∧
    ({ ready with schedlen := 177 } : State).schedlen ≠ 176 := by decide

theorem witness_ExpandCompletionStep :
    (running .expand 0).resetIn = false ∧ (running .expand 0).pend = some .expand ∧ (running .expand 0).latencyLeft = 0 ∧
    (running .expand 5).pend = some .expand ∧ (running .expand 5).script = [] := by decide

theorem witness_EncryptPairCompletionStep :
    (running .encryptPair 0).resetIn = false ∧ (running .encryptPair 0).pend = some .encryptPair ∧
    (running .encryptPair 0).latencyLeft = 0 ∧ (running .encryptPair 5).script = [] := by decide

theorem witness_RejectionIsPrecise :
    State.reset.Inv ∧ State.reset.st ≠ .busy ∧
    (∃ t, exec .expand State.reset = .next t ∧ t.st = .error) ∧ ∃ t, exec .encryptPair State.reset = .next t ∧ t.st = .error :=
  ⟨by decide, by decide, ⟨_, rfl, rfl⟩, ⟨_, rfl, rfl⟩⟩

theorem witness_ThreeErrorsAndTheirCauses :
    (∃ t, exec (.wr 0x000 0x01) State.reset = .next t ∧ t.st = .error) ∧
    (∃ t, exec .encryptPair { ready with schedlen := 0xA0 } = .next t ∧ t.st = .error) ∧
    ∃ t, exec (.rd 0x002) { ready with st := .error, err := 0x03 } = .next t ∧ t.st = .error :=
  ⟨⟨_, rfl, rfl⟩, ⟨_, rfl, rfl⟩, ⟨_, rfl, rfl⟩⟩

theorem witness_StatusStaysUntilTheNextCommand :
    (State.reset.resetIn = false ∧ ∃ t, step State.reset = .next t ∧ t.st = .idle) ∧
    ∃ t, exec (.wr 0x000 0x03) State.reset = .next t :=
  ⟨⟨rfl, _, rfl, rfl⟩, ⟨_, rfl⟩⟩

theorem witness_EncryptPairCanBeIssuedAgain :
    (running .encryptPair 0).Inv ∧ (running .encryptPair 0).Running .encryptPair ∧
    ∃ t, step (running .encryptPair 0) = .next t ∧ t.st = .done :=
  ⟨by decide, by decide, _, rfl, rfl⟩

theorem witness_StepKeepsTheInvariant :
    (running .expand 0).Inv ∧ ∃ t, step (running .expand 0) = .next t := ⟨by decide, _, rfl⟩

theorem witness_EachElementHasItsWritersOnly :
    (∃ t, step (running .expand 0) = .next t) ∧ nextMove (running .expand 0) ≠ .reset := ⟨⟨_, rfl⟩, by decide⟩

set_option maxRecDepth 20000 in
/-- K1 and its schedule from the spec meet `ScheduleOfKey`: all ten round keys, each from the one before it. -/
theorem witness_ScheduleOfKey : scheduled.ScheduleOfKey := by decide

theorem witness_ScheduleOfTheKeyIsKept :
    (nextMove (running .expand 0) = .complete .expand ∧ ∃ t, step (running .expand 0) = .next t) ∧
    scheduled.ScheduleOfKey ∧ nextMove scheduled = .complete .encryptPair ∧ (∃ t, step scheduled = .next t) :=
  ⟨⟨by decide, _, rfl⟩, witness_ScheduleOfKey, by decide, _, rfl⟩

theorem witness_PendingCommandCompletesOnItsOperands :
    let s := { running .expand 1 with script := [.wait, .expect [0x02]] }
    s.Running .expand ∧ ∃ t, run (s.latencyLeft + 1) s = .next t := ⟨by decide, _, rfl⟩

theorem witness_WaitPollsUntilNotBusy :
    (let s := { running .expand 2 with script := [.wait] }
     s.Running .expand ∧ s.script = .wait :: []) ∧
    (let s := { ready with script := [.wait] }
     s.resetIn = false ∧ s.st ≠ .busy ∧ s.pend = none ∧ s.script = .wait :: []) := by decide

theorem witness_ExpectIsNoTransaction :
    let s := { ready with script := [.expect [0x02]], returned := [0x01, 0x02], readFrom := 1 }
    s.resetIn = false ∧ s.pend = none ∧ s.script = .expect [0x02] :: [] ∧ ∃ t, step s = .next t :=
  ⟨rfl, rfl, rfl, _, rfl⟩

/-- A `RD` line at its turn, and a move that is no read. -/
theorem witness_ResultIsOfTheLastRead :
    (let s := { running .expand 1 with script := (ScriptLine.rd 0xFFF).items ++ [] }
     s.resetIn = false ∧ s.latencyLeft ≠ 0 ∧ s.script = (ScriptLine.rd 0xFFF).items ++ []) ∧
    (let s := { ready with script := (ScriptLine.wr 0x004 0x0F).items }
     (∃ t, step s = .next t) ∧ nextMove s = .transact (.wr 0x004 0x0F)) := ⟨by decide, ⟨_, rfl⟩, rfl⟩

theorem witness_LoadsWriteTheirBytesThenTheLength : 15 < min (List.replicate 17 (0x00 : Byte)).length 16 := by decide

theorem witness_ReadsReturnTheWholeBuffer :
    let s := { ready with script := ScriptLine.rdkey.items ++ [] }
    s.resetIn = false ∧ s.st ≠ .busy ∧ s.pend = none ∧ s.script = ScriptLine.rdkey.items ++ [] := ⟨rfl, by decide, rfl, rfl⟩

theorem witness_FieldMultiplicationLaws : (0xFF : Byte) ≠ 0x00 := by decide

theorem witness_SboxIsABijectionWithoutFixedPoints : sbox 0x53 = sbox 0x53 := rfl

theorem witness_SboxIsTheAffineMapOfTheInverse :
    ((0x00 : Byte) = 0x00) ∧ (0x01 : Byte) ≠ 0x00 ∧ gmul 0x01 0x01 = 0x01 := by decide

theorem witness_WordOperationsByByte : 0 < 4 ∧ 3 < 4 := by decide

theorem witness_RoundConstantsDouble : 2 ≤ 10 ∧ 10 ≤ 10 := by decide

theorem witness_ScheduleWordsFollowNextWord : 4 ≤ 43 ∧ 43 ≤ 43 := by decide

theorem witness_FirstRoundKeyIsTheKey : expand keyK1 = expand keyK1 := rfl

theorem witness_MixColumnsIsTheMatrixProduct :
    let S := Vector.replicate 16 (0xC6 : Byte)
    S[1] = S[0] ∧ S[2] = S[0] ∧ S[3] = S[0] := by decide

theorem witness_CompletedLaneDependsOnItsInputsOnly :
    nextMove (running .encryptPair 0) = .complete .encryptPair ∧
    nextMove { running .encryptPair 0 with keylen := 0xFF } = .complete .encryptPair ∧
    (running .encryptPair 0).sched = ({ running .encryptPair 0 with keylen := 0xFF } : State).sched ∧
    (∃ t, step (running .encryptPair 0) = .next t) ∧
    (∃ t, step { running .encryptPair 0 with keylen := 0xFF } = .next t) ∧
    laneA (running .encryptPair 0).blk = laneA ({ running .encryptPair 0 with keylen := 0xFF } : State).blk :=
  ⟨by decide, by decide, rfl, ⟨_, rfl⟩, ⟨_, rfl⟩, rfl⟩

end Sys2Proof.Tests
end

section
/-! The words of the key schedule and its round keys: `Expand` meets the round-key form (R144, R145, R149). -/

namespace Sys2Proof.Machine

/-! A word and its four bytes (R63). -/

/-- A word is put together again from its bytes. -/
theorem wordOf_wordByte (w : Word) :
    wordOf (wordByte w 0) (wordByte w 1) (wordByte w 2) (wordByte w 3) = w := by
  refine BitVec.eq_of_getLsbD_eq fun k hk => ?_
  simp only [wordOf, wordByte, BitVec.getLsbD_append, BitVec.getLsbD_extractLsb']
  interval_cases k <;> rfl

/-- The bytes of a word put together from four. -/
theorem wordByte_wordOf (b0 b1 b2 b3 : Byte) :
    wordByte (wordOf b0 b1 b2 b3) 0 = b0 ∧ wordByte (wordOf b0 b1 b2 b3) 1 = b1 ∧
    wordByte (wordOf b0 b1 b2 b3) 2 = b2 ∧ wordByte (wordOf b0 b1 b2 b3) 3 = b3 := by
  refine ⟨?_, ?_, ?_, ?_⟩ <;>
  · refine BitVec.eq_of_getLsbD_eq fun k hk => ?_
    simp only [wordOf, wordByte, BitVec.getLsbD_append, BitVec.getLsbD_extractLsb']
    interval_cases k <;> simp

/-- Byte `m` of word `j` of a 16-byte string is its byte `4j + m`. -/
theorem wordByte_blockWord (K : Block) (j m : Fin 4) :
    wordByte (blockWord K j) m.val = K[4 * j.val + m.val] := by
  obtain ⟨h0, h1, h2, h3⟩ := wordByte_wordOf K[4 * j.val] K[4 * j.val + 1] K[4 * j.val + 2] K[4 * j.val + 3]
  fin_cases m
  · exact h0
  · exact h1
  · exact h2
  · exact h3

/-- Two 16-byte strings with the same four words are the same. -/
theorem block_ext_words {K L : Block} (h : ∀ j : Fin 4, blockWord K j = blockWord L j) : K = L := by
  refine Vector.ext fun n hn => ?_
  have hK := wordByte_blockWord K ⟨n / 4, by omega⟩ ⟨n % 4, by omega⟩
  rw [h, wordByte_blockWord] at hK
  simpa [Nat.div_add_mod] using hK.symm

/-! The words of a schedule (R144, R145). -/

theorem scheduleWord_storeSchedule (W : List Word) (i : Fin 44) :
    scheduleWord (storeSchedule W) i = W.getD i.val 0 := by
  have hdiv : ∀ m < 4, (4 * i.val + m) / 4 = i.val ∧ (4 * i.val + m) % 4 = m := by omega
  simp [scheduleWord, hdiv, wordOf_wordByte]

/-- Word `j` of round key `k` is word `4k + j` of the schedule (R65). -/
theorem blockWord_roundKey (sched : Schedule) (k : Fin 11) (j : Fin 4) :
    blockWord (roundKey sched k) j = scheduleWord sched ⟨4 * k.val + j.val, by omega⟩ := by
  simp only [blockWord, scheduleWord, roundKey_get]
  congr 2 <;> omega

/-- A word of the schedule has its value as soon as its turn is over. -/
theorem keyWords_getD_of_le (key : Block) {t u i : Nat} (hi : i < 4 + t) (htu : t ≤ u) :
    (keyWords key u).getD i 0 = (keyWords key t).getD i 0 := by
  induction u, htu using Nat.le_induction with
  | base => rfl
  | succ u htu ih =>
    rw [← ih]
    simp only [List.getD_eq_getElem?_getD, keyWords_getElem?_succ key u i (by omega)]

/-- `NextWord` looks at two earlier words only: the one before and the one four back (R144). -/
theorem nextWord_congr {W W' : List Word} {i : Nat} (hprev : W.getD (i - 1) 0 = W'.getD (i - 1) 0)
    (hback : W.getD (i - 4) 0 = W'.getD (i - 4) 0) : nextWord W i = nextWord W' i := by
  simp only [nextWord, hprev, hback]

/-- Every word after the fourth is `NextWord` of the finished list, as it was of the list when its turn came. -/
theorem keyWords_getD_eq_nextWord (key : Block) {t u : Nat} (h : t < u) :
    (keyWords key u).getD (4 + t) 0 = nextWord (keyWords key u) (4 + t) := by
  have hlast : (keyWords key (t + 1)).getD (4 + t) 0 = nextWord (keyWords key t) (4 + t) := by
    rw [List.getD_eq_getElem?_getD, keyWords_getElem?_last, Option.getD_some]
  rw [keyWords_getD_of_le key (by omega) (show t + 1 ≤ u from h), hlast]
  exact nextWord_congr (keyWords_getD_of_le key (by omega) h.le).symm (keyWords_getD_of_le key (by omega) h.le).symm

theorem loadKeyWords_getD (key : Block) (j : Fin 4) : (loadKeyWords key).getD j.val 0 = blockWord key j := by
  simp [loadKeyWords]

/-- The first four words of `Expand` are the key's (R140). -/
theorem scheduleWord_expand_first (key : Block) (j : Fin 4) :
    scheduleWord (expand key) ⟨j.val, by omega⟩ = blockWord key j := by
  rw [expand, scheduleWord_storeSchedule, keyWords_getD_of_le key (t := 0) j.isLt (Nat.zero_le _)]
  exact loadKeyWords_getD key j

/-- Every later word of `Expand` comes from the word before it and the one four back (R144). -/
theorem scheduleWord_expand_next (key : Block) (i : Nat) (h : 4 ≤ i ∧ i ≤ 43) :
    scheduleWord (expand key) ⟨i, by omega⟩ =
      scheduleWord (expand key) ⟨i - 4, by omega⟩ ^^^
      if i % 4 = 0 then rconXor (subWord (rotWord (scheduleWord (expand key) ⟨i - 1, by omega⟩))) (i / 4)
      else scheduleWord (expand key) ⟨i - 1, by omega⟩ := by
  obtain ⟨t, rfl⟩ := Nat.exists_eq_add_of_le h.1
  simp only [expand, scheduleWord_storeSchedule]
  exact keyWords_getD_eq_nextWord key (by omega)

/-! The round keys of a schedule (R149). -/

/-- Word `j` of the 16 bytes written from a list of words is the list's. -/
theorem blockWord_ofFn_wordByte (W : List Word) (j : Fin 4) :
    blockWord (Vector.ofFn fun n => wordByte (W.getD (n.val / 4) 0) (n.val % 4)) j = W.getD j.val 0 := by
  have hdiv : ∀ m < 4, (4 * j.val + m) / 4 = j.val ∧ (4 * j.val + m) % 4 = m := by omega
  simp [blockWord, hdiv, wordOf_wordByte]

/-- The first word of the next round key takes the round constant (R149). -/
theorem blockWord_nextRoundKey_zero (K : Block) (j : Nat) :
    blockWord (nextRoundKey K j) 0 = blockWord K 0 ^^^ rconXor (subWord (rotWord (blockWord K 3))) j := by
  rw [nextRoundKey, blockWord_ofFn_wordByte]
  rfl

/-- Each later word of the next round key takes the word before it (R149). -/
theorem blockWord_nextRoundKey_succ (K : Block) (j : Nat) (m : Fin 3) :
    blockWord (nextRoundKey K j) m.succ = blockWord K m.succ ^^^ blockWord (nextRoundKey K j) m.castSucc := by
  rw [nextRoundKey, blockWord_ofFn_wordByte, blockWord_ofFn_wordByte]
  fin_cases m <;> rfl

/-- The first word of a later round key of `Expand`: `NextWord` at a multiple of 4. -/
theorem blockWord_roundKey_expand_zero (key : Block) (k : Fin 10) :
    blockWord (roundKey (expand key) k.succ) 0 =
      blockWord (roundKey (expand key) k.castSucc) 0 ^^^
        rconXor (subWord (rotWord (blockWord (roundKey (expand key) k.castSucc) 3))) (k.val + 1) := by
  have hnext := scheduleWord_expand_next key (4 * (k.val + 1)) (by omega)
  have hback : 4 * (k.val + 1) - 4 = 4 * k.val := by omega
  have hprev : 4 * (k.val + 1) - 1 = 4 * k.val + 3 := by omega
  rw [if_pos (by omega), Nat.mul_div_cancel_left _ (by decide)] at hnext
  simp only [hback, hprev] at hnext
  simp only [blockWord_roundKey]
  exact hnext

/-- Its other words: `NextWord` between the multiples of 4. -/
theorem blockWord_roundKey_expand_succ (key : Block) (k : Fin 10) (m : Fin 3) :
    blockWord (roundKey (expand key) k.succ) m.succ =
      blockWord (roundKey (expand key) k.castSucc) m.succ ^^^ blockWord (roundKey (expand key) k.succ) m.castSucc := by
  have hnext := scheduleWord_expand_next key (4 * (k.val + 1) + (m.val + 1)) (by omega)
  have hback : 4 * (k.val + 1) + (m.val + 1) - 4 = 4 * k.val + (m.val + 1) := by omega
  have hprev : 4 * (k.val + 1) + (m.val + 1) - 1 = 4 * (k.val + 1) + m.val := by omega
  rw [if_neg (by omega)] at hnext
  simp only [hback, hprev] at hnext
  simp only [blockWord_roundKey]
  exact hnext

/-- Round key 0 of `Expand` is the key. -/
theorem roundKey_expand_zero (key : Block) : roundKey (expand key) 0 = key := by
  refine block_ext_words fun j => ?_
  simpa [blockWord_roundKey] using scheduleWord_expand_first key j

/-- Each later round key of `Expand` is made from the one before it and its round constant alone (R149). -/
theorem roundKey_expand_succ (key : Block) (k : Fin 10) :
    roundKey (expand key) k.succ = nextRoundKey (roundKey (expand key) k.castSucc) (k.val + 1) := by
  refine block_ext_words fun j => ?_
  induction j using Fin.induction with
  | zero => rw [blockWord_roundKey_expand_zero, blockWord_nextRoundKey_zero]
  | succ m ih => rw [blockWord_roundKey_expand_succ, blockWord_nextRoundKey_succ, ih]

end Sys2Proof.Machine
end

section
/-! What leaves `KEYBUF` and `SCHED` as they are, and with them R24's invariant. -/

namespace Sys2Proof.Machine

/-- `KEYBUF` and `SCHED`, all that `State.ScheduleOfKey` speaks of, are the same in two states. -/
abbrev State.SameKeyAndSched (s t : State) : Prop :=
  t.keybuf = s.keybuf ∧ t.sched = s.sched

theorem State.SameKeyAndSched.scheduleOfKey {s t : State} (h : s.SameKeyAndSched t) (hs : s.ScheduleOfKey) :
    t.ScheduleOfKey := by
  obtain ⟨hkey, hsched⟩ := h
  rwa [State.ScheduleOfKey, hkey, hsched]

/-- Only the offsets 0x010 to 0x01F name a byte of `KEYBUF` (R71). -/
theorem keybuf_offset_of_cellOf {a : Addr} {n : Fin 16} (h : cellOf a = .keybuf n) :
    0x010 ≤ a.toNat ∧ a.toNat ≤ 0x01F := by
  by_contra hk
  simp only [cellOf, dif_neg hk] at h
  split_ifs at h

/-- Only the offsets 0x100 to 0x1AF name a byte of `SCHED` (R71). -/
theorem sched_offset_of_cellOf {a : Addr} {n : Fin 176} (h : cellOf a = .sched n) :
    0x100 ≤ a.toNat ∧ a.toNat ≤ 0x1AF := by
  by_contra hs
  simp only [cellOf, dif_neg hs] at h
  split_ifs at h

theorem acceptOrRaise_keeps_keyAndSched (s : State) (c : Command) (check : Option ErrorKind) :
    s.SameKeyAndSched (s.acceptOrRaise c check) := by
  obtain ⟨e, _, h⟩ | ⟨_, h⟩ := acceptOrRaise_cases s c check <;> simp [h, State.SameKeyAndSched]

theorem unlessBusy_keeps_keyAndSched {s : State} {f : State → State} (h : s.SameKeyAndSched (f s)) :
    s.SameKeyAndSched (s.unlessBusy f) := by
  by_cases hb : s.st = .busy
  · simp [unlessBusy_busy hb, State.SameKeyAndSched]
  · rwa [unlessBusy_free hb]

/-- A write of any cell but a byte of the two buffers leaves both as they are. -/
theorem writeCell_keeps_keyAndSched (d : Byte) (s : State) {c : Cell} (hkey : ∀ n, c ≠ .keybuf n)
    (hsched : ∀ n, c ≠ .sched n) : s.SameKeyAndSched (writeCell d s c) := by
  cases c with
  | cmd =>
    obtain ⟨_, h⟩ | ⟨_, h⟩ | ⟨_, _, h⟩ := issueCommand_cases d s <;> rw [writeCell, h]
    · exact acceptOrRaise_keeps_keyAndSched s .expand _
    · exact acceptOrRaise_keeps_keyAndSched s .encryptPair _
    · exact ⟨rfl, rfl⟩
  | keybuf n => exact absurd rfl (hkey n)
  | sched n => exact absurd rfl (hsched n)
  | _ => simp [writeCell, State.SameKeyAndSched]

/-- No instruction changes `KEYBUF` or `SCHED` but a `WR` to an offset of one of them (R20). -/
theorem exec_keeps_keyAndSched {i : Instr} {s t : State} (h : exec i s = .next t)
    (hwr : ∀ a d, i = .wr a d →
      ¬(0x010 ≤ a.toNat ∧ a.toNat ≤ 0x01F) ∧ ¬(0x100 ≤ a.toNat ∧ a.toNat ≤ 0x1AF)) :
    s.SameKeyAndSched t := by
  obtain ⟨a, rfl, hx⟩ | ⟨a, d, rfl, hx⟩ | ⟨rfl, rfl⟩ | ⟨rfl, rfl⟩ := exec_cases h
  · rw [exec_rd_eq] at h
    cases h
    exact ⟨rfl, rfl⟩
  · cases hx
    obtain ⟨hkey, hsched⟩ := hwr a d rfl
    exact unlessBusy_keeps_keyAndSched (writeCell_keeps_keyAndSched d s
      (fun _ hc => hkey (keybuf_offset_of_cellOf hc)) (fun _ hc => hsched (sched_offset_of_cellOf hc)))
  · exact unlessBusy_keeps_keyAndSched (acceptOrRaise_keeps_keyAndSched s .expand _)
  · exact unlessBusy_keeps_keyAndSched (acceptOrRaise_keeps_keyAndSched s .encryptPair _)

theorem passPoll_keeps_keyAndSched (s : State) : s.SameKeyAndSched s.passPoll := by
  by_cases hb : s.st = .busy <;> simp [State.passPoll, hb, State.SameKeyAndSched]

/-- The completion of `EXPAND` leaves the schedule of the key, whatever stood there before (R148). -/
theorem expandComplete_scheduleOfKey (s : State) : (expandComplete s).ScheduleOfKey := by
  rw [State.ScheduleOfKey, expandComplete, State.sched_finishExpand, State.keybuf_finishExpand]
  exact ⟨roundKey_expand_zero s.keybuf, roundKey_expand_succ s.keybuf⟩

theorem encryptPairComplete_keeps_keyAndSched (s : State) : s.SameKeyAndSched (encryptPairComplete s) := by
  simp [encryptPairComplete, State.SameKeyAndSched]

/-- A completion keeps R24's invariant: `ENCRYPT_PAIR` touches neither buffer, and `EXPAND` establishes it. -/
theorem complete_keeps_scheduleOfKey (c : Command) {s : State} (hs : s.ScheduleOfKey) :
    (complete c s).ScheduleOfKey := by
  cases c with
  | expand => exact expandComplete_scheduleOfKey s
  | encryptPair => exact (encryptPairComplete_keeps_keyAndSched s).scheduleOfKey hs

/-- R24's invariant through one step: only a reset event and a `WR` to `KEYBUF` or `SCHED` can end it. -/
theorem step_keeps_scheduleOfKey {s t : State} (hs : s.ScheduleOfKey) (h : step s = .next t)
    (hreset : nextMove s ≠ .reset)
    (hwr : ∀ a d, nextMove s = .transact (.wr a d) →
      ¬(0x010 ≤ a.toNat ∧ a.toNat ≤ 0x01F) ∧ ¬(0x100 ≤ a.toNat ∧ a.toNat ≤ 0x1AF)) :
    t.ScheduleOfKey := by
  obtain ⟨hm, _⟩ | ⟨c, _, rfl⟩ | ⟨i, hm, hx⟩ | ⟨_, hx⟩ | ⟨bytes, _, rfl⟩ | ⟨_, rfl⟩ := step_cases h
  · exact absurd hm hreset
  · exact complete_keeps_scheduleOfKey c hs
  · have hpass : s.passItem.ScheduleOfKey := hs
    have hexec : s.passItem.SameKeyAndSched t :=
      exec_keeps_keyAndSched hx fun a d hi => hwr a d (hm.trans (congrArg Move.transact hi))
    exact hexec.scheduleOfKey hpass
  · have hpass : s.passPoll.ScheduleOfKey := (passPoll_keeps_keyAndSched s).scheduleOfKey hs
    have hread : s.passPoll.SameKeyAndSched t := exec_keeps_keyAndSched hx (by simp)
    exact hread.scheduleOfKey hpass
  · have hexpect : s.SameKeyAndSched (s.passExpect.checkExpect bytes) := by simp [State.SameKeyAndSched]
    exact hexpect.scheduleOfKey hs
  · exact hs

/-- Settles O35: the completion of `EXPAND` establishes R24's invariant by the round-key form of `Expand` (R149), and
every other step keeps it by its frame on `KEYBUF` and `SCHED`. -/
theorem scheduleOfTheKeyIsKept : Obligations.ScheduleOfTheKeyIsKept := by
  refine ⟨fun s t hm hstep => ?_, fun s t hs hstep hreset hwr => step_keeps_scheduleOfKey hs hstep hreset hwr⟩
  have ht : t = complete .expand s := by simpa [step, hm] using hstep.symm
  exact ht ▸ expandComplete_scheduleOfKey s

end Sys2Proof.Machine
end

section
/-! The words of the transactions, read back by the decoder (R91, R92), and writes to `CMD` (R97, R102, R103). -/

namespace Sys2Proof.Machine

/-! The fields of a word put together from its fields. -/

@[simp] theorem htKind_htWord (kind : BitVec 4) (addr : Addr) (data : Byte) : htKind (htWord kind addr data) = kind :=
  (BitVec.extractLsb'_append_eq_of_le (xhi := kind ++ addr) (xlo := data) (by decide)).trans
    BitVec.extractLsb'_append_eq_left

@[simp] theorem htAddr_htWord (kind : BitVec 4) (addr : Addr) (data : Byte) : htAddr (htWord kind addr data) = addr :=
  (BitVec.extractLsb'_append_eq_of_le (xhi := kind ++ addr) (xlo := data) (by decide)).trans
    BitVec.extractLsb'_append_eq_right

@[simp] theorem htData_htWord (kind : BitVec 4) (addr : Addr) (data : Byte) : htData (htWord kind addr data) = data :=
  BitVec.extractLsb'_append_eq_right

/-- The word of a `RD` decodes to that `RD` (R92). -/
theorem decode_encode_rd (a : Addr) : decode (encode (.rd a)) = .ok (.rd a) := by
  simp [decode, encode]

/-- A write to `CMD` issues its code, unless the core is `BUSY` (R191, R192). -/
theorem exec_wr_cmd (c : Byte) (s : State) : exec (.wr Offset.cmd c) s = .next (s.unlessBusy (issueCommand c)) := rfl

/-- A reserved code issues no command (R97). -/
theorem issueCommand_reserved {c : Byte} (hexpand : c ≠ 0x01) (hencrypt : c ≠ 0x02) (s : State) :
    issueCommand c s = s := by
  obtain ⟨h, _⟩ | ⟨h, _⟩ | ⟨_, _, h⟩ := issueCommand_cases c s
  · exact absurd h hexpand
  · exact absurd h hencrypt
  · exact h

/-- Settles O6: the lines expand to the words of the commands, and each code issued at `CMD` is the accept step that
the command's own instruction takes. -/
theorem commandsAreWritesToCmd : Obligations.CommandsAreWritesToCmd := by
  refine ⟨?_, ?_, fun s => ⟨?_, ?_⟩⟩
  · exact congrArg (fun w => [HostItem.word w]) Laws.TableRow.expand.2
  · exact congrArg (fun w => [HostItem.word w]) Laws.TableRow.encryptPair.2
  · have hissue : issueCommand 0x01 = expandAccept := rfl
    rw [exec_wr_cmd, hissue, exec, execExpand]
  · have hissue : issueCommand 0x02 = encryptPairAccept := rfl
    rw [exec_wr_cmd, hissue, exec, execEncryptPair]

/-- Settles O19: `BUSY` ignores the write, and in any other status a reserved code issues nothing. -/
theorem reservedCommandCodeChangesNothing : Obligations.ReservedCommandCodeChangesNothing := by
  intro c s hexpand hencrypt
  rw [exec_wr_cmd]
  by_cases hb : s.st = .busy
  · rw [unlessBusy_busy hb]
  · rw [unlessBusy_free hb, issueCommand_reserved hexpand hencrypt]

end Sys2Proof.Machine
end

section
/-! The reads of a whole buffer, run on a core at rest (R107). -/

namespace Sys2Proof.Machine

/-! What a read answers outside `BUSY`. -/

/-- Outside `BUSY` no read takes a free value (R242). -/
theorem readDraws_free {s : State} (h : s.st ≠ .busy) (c : Cell) : readDraws s c = false := by
  cases c <;> simp [readDraws, h]

/-- Outside `BUSY` a read returns the stored byte of a buffer (R190). -/
theorem bufferByte_free {s : State} (h : s.st ≠ .busy) (stored : Byte) : bufferByte s stored = stored := by
  simp [bufferByte, h]

/-- Outside `BUSY` a read hands its byte to the host and draws nothing (R70, R190). -/
theorem exec_rd_free {s : State} (h : s.st ≠ .busy) (a : Addr) :
    exec (.rd a) s = .next (s.pushReturned (readCell s (cellOf a))) := by
  rw [exec_rd_eq, readDraws_free h]
  rfl

/-- The cells hold the same bytes wherever the host stands in its script. -/
@[simp] theorem readCell_passItem (s : State) (c : Cell) : readCell s.passItem c = readCell s c := by
  cases c <;> rfl

/-- An offset inside the register space does not wrap. -/
theorem toNat_offset_add {base : Addr} {m : Nat} (h : base.toNat + m < 4096) :
    (base + BitVec.ofNat 12 m).toNat = base.toNat + m := by
  rw [BitVec.toNat_add, BitVec.toNat_ofNat]
  omega

theorem readCell_keybuf_free {s : State} (hst : s.st ≠ .busy) {m : Nat} (h : m < 16) :
    readCell s (cellOf (Offset.keybuf + BitVec.ofNat 12 m)) = s.keybuf[m] := by
  have ha : (Offset.keybuf + BitVec.ofNat 12 m).toNat = 0x010 + m := toNat_offset_add (by simp; omega)
  rw [cellOf_keybuf (by omega), readCell, bufferByte_free hst]
  simp only [ha, Nat.add_sub_cancel_left, Fin.getElem_fin]

theorem readCell_blk_free {s : State} (hst : s.st ≠ .busy) {m : Nat} (h : m < 32) :
    readCell s (cellOf (Offset.blk + BitVec.ofNat 12 m)) = s.blk[m] := by
  have ha : (Offset.blk + BitVec.ofNat 12 m).toNat = 0x020 + m := toNat_offset_add (by simp; omega)
  rw [cellOf_blk (by omega), readCell, bufferByte_free hst]
  simp only [ha, Nat.add_sub_cancel_left, Fin.getElem_fin]

theorem readCell_sched_free {s : State} (hst : s.st ≠ .busy) {m : Nat} (h : m < 176) :
    readCell s (cellOf (Offset.sched + BitVec.ofNat 12 m)) = s.sched[m] := by
  have ha : (Offset.sched + BitVec.ofNat 12 m).toNat = 0x100 + m := toNat_offset_add (by simp; omega)
  rw [cellOf_sched (by omega), readCell, bufferByte_free hst]
  simp only [ha, Nat.add_sub_cancel_left, Fin.getElem_fin]

/-! One read of a script, and a row of reads. -/

/-- The core is at rest and no reset event is due: the host has the next move (R107's "not `BUSY`"). -/
abbrev State.AtRest (s : State) : Prop :=
  s.resetIn = false ∧ s.st ≠ .busy ∧ s.pend = none

/-- A run that answers goes on with one step more at its end. -/
theorem run_succ_last {k : Nat} {s t : State} (h : run k s = .next t) : run (k + 1) s = step t := by
  induction k generalizing s with
  | zero =>
    obtain rfl : s = t := by simpa [run] using h
    unfold run
    cases step s <;> rfl
  | succ k ih =>
    obtain ⟨u, hstep, hrun⟩ := step_of_run_succ h
    rw [run_succ_of_step (k + 1) hstep, ih hrun]

/-- At rest, a word that is a `RD` is the next step: the host goes past it and has its byte. -/
theorem step_rd_atRest {s : State} (hrest : s.AtRest) {a : Addr} {joins : Bool} {rest : List HostItem}
    (hscript : s.script = .word (encode (.rd a)) joins :: rest) :
    step s = .next (s.passItem.pushReturned (readCell s (cellOf a))) := by
  obtain ⟨hreset, hst, hpend⟩ := hrest
  have hmove : nextMove s = .transact (.rd a) := by
    simp [nextMove, hreset, hpend, hostMove, hscript, decode_encode_rd]
  have hexec := exec_rd_free (s := s.passItem) hst a
  simpa [step, hmove] using hexec

/-- Item `m` of the reads from `base` on: all but the first join its result (R107). -/
def readItem (base : Addr) (m : Nat) : HostItem := .word (encode (.rd (base + BitVec.ofNat 12 m))) (m != 0)

theorem readItems_succ (base : Addr) (n : Nat) : readItems base (n + 1) = readItems base n ++ [readItem base n] := by
  simp [readItems, readItem, List.range_succ]

@[simp] theorem beginsRead_readItem (base : Addr) (m : Nat) : (readItem base m).beginsRead = (m == 0) := by
  simp [readItem, beginsRead_word _ (decode_encode_rd _), isRead, bne]

/-- The bytes that `n` reads from `base` on return, lowest offset first. -/
def State.bytesFrom (s : State) (base : Addr) (n : Nat) : List Byte :=
  (List.range n).map fun m => readCell s (cellOf (base + BitVec.ofNat 12 m))

/-- The bytes from `base` on are a buffer whose every byte is read there. -/
theorem State.bytesFrom_eq_toList {s : State} {base : Addr} {n : Nat} (v : Vector Byte n)
    (h : ∀ m (hm : m < n), readCell s (cellOf (base + BitVec.ofNat 12 m)) = v[m]) :
    s.bytesFrom base n = v.toList :=
  List.ext_getElem (by simp [bytesFrom]) fun m _ hm => by simpa [bytesFrom] using h m (by simpa using hm)

/-- What `n` reads from `base` on leave, with `rest` still to do: the core is as it was, and the bytes from `base` on are
the result of the read that the first of them began. -/
def State.afterReads (s : State) (base : Addr) (n : Nat) (rest : List HostItem) : State :=
  { s with
    script := rest, pos := s.pos + n, latencyLeft := s.latencyLeft - n
    returned := s.returned ++ s.bytesFrom base n
    readFrom := if n = 0 then s.readFrom else s.returned.length }

/-- The cells hold the same bytes after the reads. -/
@[simp] theorem readCell_afterReads (s : State) (base : Addr) (n : Nat) (rest : List HostItem) (c : Cell) :
    readCell (s.afterReads base n rest) c = readCell s c := by
  cases c <;> rfl

/-- One read more: the host passes its word, which begins the result if it is the first and joins it otherwise. -/
theorem afterReads_succ (s : State) (base : Addr) (n : Nat) (rest : List HostItem) :
    (s.afterReads base n (readItem base n :: rest)).passItem.pushReturned
        (readCell s (cellOf (base + BitVec.ofNat 12 n))) =
      s.afterReads base (n + 1) rest := by
  have hfrom := nextReadFrom_cons (s := s.afterReads base n (readItem base n :: rest)) rfl
  rw [State.pushReturned, State.passItem, hfrom]
  cases n <;> simp [State.afterReads, State.bytesFrom, List.range_succ, Nat.add_assoc, Nat.sub_sub]

/-- The reads of `n` bytes, run at rest: by induction on `n`, one step at the end of the run for each read more. -/
theorem run_readItems {s : State} (hrest : s.AtRest) (base : Addr) (n : Nat) {rest : List HostItem}
    (hscript : s.script = readItems base n ++ rest) : run n s = .next (s.afterReads base n rest) := by
  induction n generalizing rest with
  | zero =>
    have hs : s.script = rest := hscript
    simp [run, State.afterReads, State.bytesFrom, ← hs]
  | succ n ih =>
    rw [readItems_succ, List.append_assoc, List.singleton_append] at hscript
    have hrest' : (s.afterReads base n (readItem base n :: rest)).AtRest := hrest
    rw [run_succ_last (ih hscript), step_rd_atRest hrest' rfl, readCell_afterReads, afterReads_succ]

/-- The reads of a whole buffer, run at rest, return it and leave the core as it was (R107). -/
theorem run_readItems_buffer {s : State} (hrest : s.AtRest) {base : Addr} {n : Nat} (hn : n ≠ 0) (v : Vector Byte n)
    (hv : ∀ m (hm : m < n), readCell s (cellOf (base + BitVec.ofNat 12 m)) = v[m]) {rest : List HostItem}
    (hscript : s.script = readItems base n ++ rest) :
    ∃ t, run n s = .next t ∧ s.SameCore t ∧
      t.script = rest ∧ t.returned = s.returned ++ v.toList ∧ t.readResult = v.toList := by
  have hbytes : s.bytesFrom base n = v.toList := State.bytesFrom_eq_toList v hv
  refine ⟨s.afterReads base n rest, run_readItems hrest base n hscript, ?_, rfl, ?_, ?_⟩
  · simp [State.SameCore, State.SameOperands, State.afterReads]
  · simp [State.afterReads, hbytes]
  · simp [State.readResult, State.afterReads, hn, hbytes]

/-- Settles O40: each line is a row of reads over one buffer, whose bytes stand at its offsets outside `BUSY`. -/
theorem readsReturnTheWholeBuffer : Obligations.ReadsReturnTheWholeBuffer := by
  intro s rest hreset hst hpend
  have hrest : s.AtRest := ⟨hreset, hst, hpend⟩
  exact ⟨
    run_readItems_buffer hrest (by decide) s.blk fun _ hm => readCell_blk_free hst hm,
    run_readItems_buffer hrest (by decide) s.sched fun _ hm => readCell_sched_free hst hm,
    run_readItems_buffer hrest (by decide) s.keybuf fun _ hm => readCell_keybuf_free hst hm⟩

end Sys2Proof.Machine
end

section
/-! Multiplication in the field (R111 to R114), the matrix of MixColumns (R120), the S-box (R115) and the round
constants (R118). -/

namespace Sys2Proof.Machine

/-! `xtime` and `gmul` are linear in the byte that is multiplied. -/

theorem xtime_eq_xor (b : Byte) : xtime b = (b <<< 1) ^^^ if b.getLsbD 7 then 0x1B else 0x00 := by
  unfold xtime
  split <;> simp

theorem xtime_xor (a b : Byte) : xtime (a ^^^ b) = xtime a ^^^ xtime b := by
  have hreduce (p q : Bool) : (if p ^^ q then 0x1B else 0x00 : Byte) =
      (if p then 0x1B else 0x00) ^^^ (if q then 0x1B else 0x00) := by
    cases p <;> cases q <;> rfl
  simp only [xtime_eq_xor, BitVec.shiftLeft_xor_distrib, BitVec.getLsbD_xor, hreduce]
  ac_rfl

theorem gmulStep_eq_xor (b : Byte) (pa : Byte × Byte) (k : Nat) :
    gmulStep b pa k = (pa.1 ^^^ if b.getLsbD k then pa.2 else 0x00, xtime pa.2) := by
  unfold gmulStep
  split <;> simp

theorem gmulStep_xor (b : Byte) (pa qc : Byte × Byte) (k : Nat) :
    gmulStep b (pa.1 ^^^ qc.1, pa.2 ^^^ qc.2) k =
      ((gmulStep b pa k).1 ^^^ (gmulStep b qc k).1, (gmulStep b pa k).2 ^^^ (gmulStep b qc k).2) := by
  by_cases hb : b.getLsbD k <;> simp only [gmulStep, hb, xtime_xor, if_true, if_false, Bool.false_eq_true]
  ac_rfl

theorem gmulStep_map_xtime (b : Byte) (pa : Byte × Byte) (k : Nat) :
    gmulStep b (pa.map xtime xtime) k = (gmulStep b pa k).map xtime xtime := by
  by_cases hb : b.getLsbD k <;> simp [gmulStep, hb, xtime_xor]

/-- Multiplication distributes over the sum on its left (R113): each turn of the loop does. -/
theorem gmul_xor_left (a c b : Byte) : gmul (a ^^^ c) b = gmul a b ^^^ gmul c b := by
  have hfold := List.foldl_hom₂ (List.range 8) (fun pa qc : Byte × Byte => (pa.1 ^^^ qc.1, pa.2 ^^^ qc.2)) _ _ _
    (0x00, a) (0x00, c) fun pa qc k => (gmulStep_xor b pa qc k).symm
  simpa [gmul] using congrArg Prod.fst hfold

/-- Doubling comes out of the product on its left (R113): it comes out of each turn of the loop. -/
theorem gmul_xtime_left (a b : Byte) : gmul (xtime a) b = xtime (gmul a b) :=
  congrArg Prod.fst (List.foldl_hom (Prod.map xtime xtime) (gmulStep_map_xtime b) (init := (0x00, a)))

/-! The products MixColumns uses (R114). -/

/-- The multiples of 0x01 that the loop adds up are the powers of 2, so it puts `b` together again bit by bit. -/
theorem gmul_one_left (b : Byte) : gmul 0x01 b = mul1 b := by
  have hbit (p : Bool) (x : Byte) (i : Nat) : (if p then x else 0x00).getLsbD i = (p && x.getLsbD i) := by
    cases p <;> simp
  refine BitVec.eq_of_getLsbD_eq fun i hi => ?_
  simp only [gmul, mul1, List.range_succ, List.range_zero, List.nil_append, List.foldl_append, List.foldl_cons,
    List.foldl_nil, gmulStep_eq_xor, BitVec.getLsbD_xor, hbit]
  interval_cases i <;> simp [xtime]

theorem gmul_two_left (b : Byte) : gmul 0x02 b = mul2 b := by
  have h : gmul (xtime 0x01) b = xtime (gmul 0x01 b) := gmul_xtime_left 0x01 b
  rwa [gmul_one_left] at h

theorem gmul_three_left (b : Byte) : gmul 0x03 b = mul3 b := by
  have h : gmul (0x02 ^^^ 0x01) b = gmul 0x02 b ^^^ gmul 0x01 b := gmul_xor_left 0x02 0x01 b
  rwa [gmul_two_left, gmul_one_left] at h

/-! The matrix of MixColumns (R120, R163). -/

/-- Row `t` of the matrix is row 0 rotated right by `t` places. -/
theorem mixEntry_eq_gmul (a0 a1 a2 a3 : Byte) (t : Fin 4) :
    mixEntry a0 a1 a2 a3 t.val =
      gmul ([0x02, 0x03, 0x01, 0x01].getD ((4 - t.val) % 4) 0x00) a0 ^^^
      gmul ([0x02, 0x03, 0x01, 0x01].getD ((5 - t.val) % 4) 0x00) a1 ^^^
      gmul ([0x02, 0x03, 0x01, 0x01].getD ((6 - t.val) % 4) 0x00) a2 ^^^
      gmul ([0x02, 0x03, 0x01, 0x01].getD ((7 - t.val) % 4) 0x00) a3 := by
  simp only [mixEntry, ← gmul_one_left, ← gmul_two_left, ← gmul_three_left]
  fin_cases t <;> rfl

/-- The coefficients of every row add up to 0x01. -/
theorem mixEntry_self (a : Byte) (t : Nat) : mixEntry a a a a t = a := by
  match t with
  | 0 | 1 | 2 | _ + 3 => simp [mixEntry, mul1, mul2, mul3, BitVec.xor_comm]

/-- Byte `t` of column `c` after MixColumns. -/
theorem mixColumns_column (S : Block) (c t : Fin 4) :
    (mixColumns S)[4 * c.val + t.val] =
      mixEntry S[4 * c.val] S[4 * c.val + 1] S[4 * c.val + 2] S[4 * c.val + 3] t.val := by
  have hdiv : (4 * c.val + t.val) / 4 = c.val := by omega
  have hmod : (4 * c.val + t.val) % 4 = t.val := by omega
  simp only [mixColumns_get, hdiv, hmod]

/-- Settles O51, column by column: an entry is its row's sum of products, and the row's coefficients add up to 0x01. -/
theorem mixColumnsIsTheMatrixProduct : Obligations.MixColumnsIsTheMatrixProduct := by
  refine ⟨fun S c t => ?_, fun S c t h1 h2 h3 => ?_⟩
  · rw [mixColumns_column, mixEntry_eq_gmul]
  · rw [mixColumns_column, h1, h2, h3, mixEntry_self]

/-! The S-box (R115, R116): the table, taken back through the affine map, is the inverse in the field. -/

theorem getLsbD_rotl8 (b : Byte) {n i : Nat} (hn : n < 8) (hi : i < 8) :
    (rotl8 b n).getLsbD i = b.getLsbD ((i + (8 - n)) % 8) := by
  rw [rotl8, BitVec.getLsbD_rotateLeft, Nat.mod_eq_of_lt hn]
  by_cases hin : i < n
  · have hmod : (i + (8 - n)) % 8 = 8 - n + i := by omega
    simp [hin, hmod]
  · have hmod : (i + (8 - n)) % 8 = i - n := by omega
    simp [hin, hi, hmod]

theorem rotl8_zero (b : Byte) : rotl8 b 0 = b :=
  BitVec.eq_of_getLsbD_eq fun i hi => by
    rw [getLsbD_rotl8 b (by decide) hi, Nat.sub_zero, Nat.add_mod_right, Nat.mod_eq_of_lt hi]

theorem rotl8_xor (a b : Byte) {n : Nat} (hn : n < 8) : rotl8 (a ^^^ b) n = rotl8 a n ^^^ rotl8 b n :=
  BitVec.eq_of_getLsbD_eq fun i hi => by simp only [BitVec.getLsbD_xor, getLsbD_rotl8 _ hn hi]

theorem rotl8_rotl8 (b : Byte) {m n : Nat} (hm : m < 8) (hn : n < 8) :
    rotl8 (rotl8 b m) n = rotl8 b ((m + n) % 8) :=
  BitVec.eq_of_getLsbD_eq fun i hi => by
    have hmod : ((i + (8 - n)) % 8 + (8 - m)) % 8 = (i + (8 - (m + n) % 8)) % 8 := by omega
    rw [getLsbD_rotl8 _ hn hi, getLsbD_rotl8 b hm (by omega), getLsbD_rotl8 b (by omega) hi, hmod]

/-- The inverse of the affine map of R115. -/
def sboxAffineInv (y : Byte) : Byte := rotl8 (y ^^^ 0x63) 1 ^^^ rotl8 (y ^^^ 0x63) 3 ^^^ rotl8 (y ^^^ 0x63) 6

/-- Of the fifteen rotations of `y ^^^ 0x63` every one but the byte itself comes up twice. -/
theorem sboxAffine_sboxAffineInv (y : Byte) : sboxAffine (sboxAffineInv y) = y := by
  rw [sboxAffineInv]
  have hy : y = (y ^^^ 0x63) ^^^ 0x63 := (xor_cancel_right y 0x63).symm
  generalize y ^^^ 0x63 = z at hy ⊢
  simp (disch := decide) only [sboxAffine, rotl8_xor, rotl8_rotl8, Nat.reduceAdd, Nat.reduceMod, rotl8_zero]
  calc
    _ = z ^^^ 0x63 ^^^ ((rotl8 z 1 ^^^ rotl8 z 1) ^^^ (rotl8 z 2 ^^^ rotl8 z 2) ^^^ (rotl8 z 3 ^^^ rotl8 z 3) ^^^
          (rotl8 z 4 ^^^ rotl8 z 4) ^^^ (rotl8 z 5 ^^^ rotl8 z 5) ^^^ (rotl8 z 6 ^^^ rotl8 z 6) ^^^
          (rotl8 z 7 ^^^ rotl8 z 7)) := by ac_rfl
    _ = y := by simp [hy]

/-- The table is data (R116), so that it holds the inverses is checked at each of the 255 bytes that have one. -/
theorem gmul_sboxAffineInv_sbox : ∀ a : Byte, a ≠ 0x00 → gmul a (sboxAffineInv (sbox a)) = 0x01 := by
  decide

/-- Settles O42: `q` is the table's entry taken back through the affine map. -/
theorem sboxIsTheAffineMapOfTheInverse : Obligations.SboxIsTheAffineMapOfTheInverse := by
  refine fun a => ⟨sboxAffineInv (sbox a), ?_, gmul_sboxAffineInv_sbox a, (sboxAffine_sboxAffineInv (sbox a)).symm⟩
  rintro rfl
  rfl

/-! The round constants (R118). -/

/-- Settles O44: the table of R119, entry by entry. -/
theorem roundConstantsDouble : Obligations.RoundConstantsDouble := by
  refine ⟨rfl, fun j h2 h10 => ?_⟩
  interval_cases j <;> rfl

end Sys2Proof.Machine
end

section
/-! The word operations, byte by byte (R141, R142, R143), and the words of an expanded schedule (R144). -/

namespace Sys2Proof.Machine

/-! Each word operation puts a word together from four bytes. -/

/-- A word put together from the values of `f` at 0 to 3 has them as its bytes. -/
theorem wordByte_wordOf_fn (f : Nat → Byte) {m : Nat} (hm : m < 4) :
    wordByte (wordOf (f 0) (f 1) (f 2) (f 3)) m = f m := by
  obtain ⟨h0, h1, h2, h3⟩ := wordByte_wordOf (f 0) (f 1) (f 2) (f 3)
  interval_cases m
  · exact h0
  · exact h1
  · exact h2
  · exact h3

/-- The low 24 bits of a word are its bytes 1 to 3 (R63). -/
theorem extractLsb'_low_eq_wordBytes (w : Word) :
    w.extractLsb' 0 24 = wordByte w 1 ++ wordByte w 2 ++ wordByte w 3 := by
  have hmid : wordByte w 1 ++ wordByte w 2 = w.extractLsb' 8 16 :=
    BitVec.extractLsb'_append_extractLsb'_eq_extractLsb' rfl
  have hlow : w.extractLsb' 8 16 ++ wordByte w 3 = w.extractLsb' 0 24 :=
    BitVec.extractLsb'_append_extractLsb'_eq_extractLsb' rfl
  rw [hmid, hlow]

theorem rotWord_eq_wordOf (w : Word) :
    rotWord w = wordOf (wordByte w 1) (wordByte w 2) (wordByte w 3) (wordByte w 0) := by
  rw [rotWord, extractLsb'_low_eq_wordBytes]
  rfl

theorem rconXor_eq_wordOf (w : Word) (j : Nat) :
    rconXor w j = wordOf (wordByte w 0 ^^^ rcon j) (wordByte w 1) (wordByte w 2) (wordByte w 3) := by
  have hassoc (a b c d : Byte) : a ++ (b ++ c ++ d) = a ++ b ++ c ++ d :=
    BitVec.append_assoc.symm.trans (congrArg (· ++ d) BitVec.append_assoc.symm)
  rw [rconXor, extractLsb'_low_eq_wordBytes]
  exact hassoc ..

/-- The low 8 bits are what was the high byte; every other bit comes from 8 places below (R141). -/
theorem rotWord_eq_rotateLeft (w : Word) : rotWord w = w.rotateLeft 8 := by
  refine BitVec.eq_of_getLsbD_eq fun k hk => ?_
  rw [rotWord, BitVec.getLsbD_append, BitVec.getLsbD_rotateLeft]
  by_cases hlow : k < 8
  · simp [hlow]
  · simp [hlow, hk]
    omega

/-- Settles O45: each operation is the word of its four bytes, and a word has the bytes it was put together from. -/
theorem wordOperationsByByte : Obligations.WordOperationsByByte := by
  refine ⟨rotWord_eq_rotateLeft, fun w m hm => ?_, fun w m hm => ?_, fun w j m hm => ?_⟩
  · rw [rotWord_eq_wordOf]
    exact wordByte_wordOf_fn (fun m => wordByte w ((m + 1) % 4)) hm
  · exact wordByte_wordOf_fn (fun m => sbox (wordByte w m)) hm
  · rw [rconXor_eq_wordOf]
    exact wordByte_wordOf_fn (fun m => if m = 0 then wordByte w 0 ^^^ rcon j else wordByte w m) hm

/-- Settles O46: the first four words are the key's, and every later word is `NextWord` of the finished schedule, since
the turns that come after a word leave it alone. -/
theorem scheduleWordsFollowNextWord : Obligations.ScheduleWordsFollowNextWord :=
  fun key => ⟨scheduleWord_expand_first key, scheduleWord_expand_next key⟩

end Sys2Proof.Machine
end

section
/-! The completion of a pending command as a step of the machine (R148, R174). -/

namespace Sys2Proof.Machine

/-- With a command pending, its latency used up or the script over, and no reset event due, its completion comes next. -/
theorem nextMove_complete_of_due {s : State} {c : Command} (hreset : s.resetIn = false) (hpend : s.pend = some c)
    (hdue : s.latencyLeft = 0 ∨ s.script = []) : nextMove s = .complete c := by
  simp [nextMove, hreset, hpend, hdue]

theorem step_of_nextMove_complete {s : State} {c : Command} (h : nextMove s = .complete c) :
    step s = .next (complete c s) := by
  rw [step, h]

/-- Settles O26: the completion is the next move, and what it answers is `expandComplete`. -/
theorem expandCompletionStep : Obligations.ExpandCompletionStep :=
  fun _ hreset hpend hdue => step_of_nextMove_complete (nextMove_complete_of_due hreset hpend hdue)

end Sys2Proof.Machine
end

section
/-! The round operations, each byte in its place (R160, R161) or in its row (R162), and the completion of `ENCRYPT_PAIR`
(R174). -/

namespace Sys2Proof.Machine

/-- After ShiftRows column `col` of a row has what column `col + row` of it had, modulo 4 (R162). -/
theorem shiftRows_row_col (S : Block) {row col : Nat} (hrow : row < 4) (hcol : col < 4) :
    (shiftRows S)[row + 4 * col] = S[row + 4 * ((col + row) % 4)] := by
  have hmod : (row + 4 * col) % 4 = row := by omega
  have hdiv : (row + 4 * col) / 4 = col := by omega
  simp only [shiftRows_get, hmod, hdiv]

/-- Four rotations of row `row` move it `4 * row` columns on, which is where it was. -/
theorem shiftRows_four (S : Block) : shiftRows (shiftRows (shiftRows (shiftRows S))) = S := by
  refine Vector.ext fun n hn => ?_
  obtain ⟨row, col, hrow, hcol, rfl⟩ : ∃ row col, row < 4 ∧ col < 4 ∧ n = row + 4 * col :=
    ⟨n % 4, n / 4, by omega, by omega, by omega⟩
  have hback : ((((col + row) % 4 + row) % 4 + row) % 4 + row) % 4 = col := by omega
  rw [shiftRows_row_col _ hrow hcol, shiftRows_row_col _ hrow (by omega), shiftRows_row_col _ hrow (by omega),
    shiftRows_row_col _ hrow (by omega)]
  simp only [hback]

theorem shiftRows_replicate (b : Byte) : shiftRows (Vector.replicate 16 b) = Vector.replicate 16 b :=
  Vector.ext fun n hn => by simp only [shiftRows_get, Vector.getElem_replicate]

/-- Settles O50: the formula of R162 at a row and a column, and what follows from it. -/
theorem shiftRowsRotatesEachRowLeft : Obligations.ShiftRowsRotatesEachRowLeft :=
  ⟨fun S row col => shiftRows_row_col S row.isLt col.isLt, shiftRows_four, shiftRows_replicate⟩

theorem addRoundKey_addRoundKey (S K : Block) : addRoundKey (addRoundKey S K) K = S :=
  Vector.ext fun n hn => by rw [addRoundKey_get, addRoundKey_get, xor_cancel_right]

theorem addRoundKey_zero (S : Block) : addRoundKey S (Vector.replicate 16 0x00) = S :=
  Vector.ext fun n hn => (addRoundKey_get ..).trans (by simp)

/-- Equal bytes are looked up to equal bytes (R161). -/
theorem subBytes_replicate (b : Byte) : subBytes (Vector.replicate 16 b) = Vector.replicate 16 (sbox b) :=
  Vector.ext fun n hn => by rw [subBytes_get, Vector.getElem_replicate, Vector.getElem_replicate]

/-- Settles O49: the two operations byte by byte, and the table's entry for the zero byte, 0x63. -/
theorem addRoundKeyAndSubBytes : Obligations.AddRoundKeyAndSubBytes :=
  ⟨fun S K n => addRoundKey_get S K n n.isLt, addRoundKey_addRoundKey, addRoundKey_zero,
    fun S n => subBytes_get S n n.isLt, subBytes_replicate 0x00⟩

/-- Settles O27: the completion is the next move, and what it answers is `encryptPairComplete`. -/
theorem encryptPairCompletionStep : Obligations.EncryptPairCompletionStep :=
  fun _ hreset hpend hdue => step_of_nextMove_complete (nextMove_complete_of_due hreset hpend hdue)

end Sys2Proof.Machine
end

section
/-! What each instruction answers, cell by cell (R190, R191), and the issue of a command (R192). -/

namespace Sys2Proof.Machine

/-- Settles O9: each arm of `exec` is a next state. -/
theorem everyInstructionAnswers : Obligations.EveryInstructionAnswers := by
  intro i s
  cases i with
  | rd a => exact ⟨_, exec_rd_eq a s⟩
  | wr a d => exact ⟨s.unlessBusy fun s => writeCell d s (cellOf a), rfl⟩
  | expand => exact ⟨s.unlessBusy expandAccept, rfl⟩
  | encryptPair => exact ⟨s.unlessBusy encryptPairAccept, rfl⟩

/-! Reads -/

/-- A read of a cell that takes no free value hands the cell's byte to the host. -/
theorem exec_rd_of_cellOf {a : Addr} {c : Cell} {s : State} (hcell : cellOf a = c) (hdraws : readDraws s c = false) :
    exec (.rd a) s = .next (s.pushReturned (readCell s c)) := by
  rw [exec_rd_eq, hcell, hdraws]
  rfl

/-- Every offset of the operand buffers names a byte of one of them (R71). -/
theorem cellOf_bufferOffset {a : Addr} (h : BufferOffset a) :
    (∃ n, cellOf a = .keybuf n) ∨ (∃ n, cellOf a = .blk n) ∨ ∃ n, cellOf a = .sched n := by
  obtain hlow | hsched := h
  · by_cases hkey : a.toNat ≤ 0x01F
    · exact .inl ⟨_, cellOf_keybuf ⟨hlow.1, hkey⟩⟩
    · exact .inr (.inl ⟨_, cellOf_blk ⟨by omega, hlow.2⟩⟩)
  · exact .inr (.inr ⟨_, cellOf_sched hsched⟩)

/-- While `BUSY` a read of a buffer returns a free value, which it draws (R190, R242). -/
theorem exec_rd_buffer_busy {a : Addr} {s : State} (h : BufferOffset a) (hbusy : s.st = .busy) :
    exec (.rd a) s = .next (s.draw.pushReturned (Config.busyRead s.draws)) := by
  obtain ⟨n, hc⟩ | ⟨n, hc⟩ | ⟨n, hc⟩ := cellOf_bufferOffset h <;>
    simp [exec, execRd, hc, readDraws, readCell, bufferByte, hbusy]

/-- Settles O15: the offset names its cell, and outside `BUSY`, or for a cell that is no buffer byte, the read returns
what the cell holds. -/
theorem readReturnsTheByteOfItsOffset : Obligations.ReadReturnsTheByteOfItsOffset := by
  intro a s
  refine ⟨?cmd, ?status, ?err, ?keylen, ?blklen, ?schedlen, ?reserved, ?busy, ?keybuf, ?blk, ?sched⟩
  case cmd => rintro rfl; exact exec_rd_of_cellOf cellOf_cmd rfl
  case status =>
    rintro rfl
    refine (exec_rd_status s).trans (congrArg (fun b => Host.Outcome.next (s.pushReturned b)) ?_)
    cases s.st <;> rfl
  case err => rintro rfl; exact exec_rd_of_cellOf cellOf_err rfl
  case keylen => rintro rfl; exact exec_rd_of_cellOf cellOf_keylen rfl
  case blklen => rintro rfl; exact exec_rd_of_cellOf cellOf_blklen rfl
  case schedlen => rintro rfl; exact exec_rd_of_cellOf cellOf_schedlen rfl
  case reserved => exact fun h => exec_rd_of_cellOf (cellOf_reserved h) rfl
  case busy => exact exec_rd_buffer_busy
  case keybuf => intro h hst; rw [exec_rd_free hst, cellOf_keybuf h, readCell, bufferByte_free hst]; rfl
  case blk => intro h hst; rw [exec_rd_free hst, cellOf_blk h, readCell, bufferByte_free hst]; rfl
  case sched => intro h hst; rw [exec_rd_free hst, cellOf_sched h, readCell, bufferByte_free hst]; rfl

/-! Writes -/

theorem exec_wr_busy {s : State} (h : s.st = .busy) (a : Addr) (d : Byte) : exec (.wr a d) s = .next s :=
  congrArg _ (unlessBusy_busy h _)

/-- Outside `BUSY` a write acts on the cell that its offset names. -/
theorem exec_wr_of_cellOf {a : Addr} {c : Cell} {s : State} (hst : s.st ≠ .busy) (hcell : cellOf a = c) (d : Byte) :
    exec (.wr a d) s = .next (writeCell d s c) :=
  hcell ▸ congrArg _ (unlessBusy_free hst _)

theorem exec_expand_free {s : State} (h : s.st ≠ .busy) : exec .expand s = .next (expandAccept s) :=
  congrArg _ (unlessBusy_free h _)

theorem exec_encryptPair_free {s : State} (h : s.st ≠ .busy) :
    exec .encryptPair s = .next (encryptPairAccept s) :=
  congrArg _ (unlessBusy_free h _)

/-- Settles O18: the offset names its cell, `BUSY` ignores the write, and outside it `writeCell` acts on that cell; at
`CMD` by the command of the code. -/
theorem writeActsOnTheCellOfItsOffset : Obligations.WriteActsOnTheCellOfItsOffset := by
  refine fun a d s => ⟨fun hbusy => exec_wr_busy hbusy a d, fun hst => ?_⟩
  refine ⟨?cmd, ?ignored, ?keylen, ?blklen, ?schedlen, ?keybuf, ?blk, ?sched⟩
  case cmd =>
    rintro rfl
    rw [exec_wr_of_cellOf (a := 0x000) hst cellOf_cmd, exec_expand_free hst, exec_encryptPair_free hst, writeCell]
    obtain ⟨rfl, h⟩ | ⟨rfl, h⟩ | ⟨hexpand, hencrypt, h⟩ := issueCommand_cases d s
    · rw [h, if_pos rfl]
    · rw [h, if_neg (by decide), if_pos rfl]
    · rw [h, if_neg hexpand, if_neg hencrypt]
  case ignored =>
    rintro (rfl | rfl | h)
    · exact exec_wr_of_cellOf hst cellOf_status d
    · exact exec_wr_of_cellOf hst cellOf_err d
    · exact exec_wr_of_cellOf hst (cellOf_reserved h) d
  case keylen => rintro rfl; exact exec_wr_of_cellOf hst cellOf_keylen d
  case blklen => rintro rfl; exact exec_wr_of_cellOf hst cellOf_blklen d
  case schedlen => rintro rfl; exact exec_wr_of_cellOf hst cellOf_schedlen d
  case keybuf => exact fun h => exec_wr_of_cellOf hst (cellOf_keybuf h) d
  case blk => exact fun h => exec_wr_of_cellOf hst (cellOf_blk h) d
  case sched => exact fun h => exec_wr_of_cellOf hst (cellOf_sched h) d

/-! Commands -/

/-- Both outcomes of an accept step overwrite `ST` and `ERR` (R192, R203, R205). -/
theorem acceptOrRaise_overwrites_status (s : State) (st : St) (e : Byte) (c : Command) (check : Option ErrorKind) :
    ({ s with st := st, err := e } : State).acceptOrRaise c check = s.acceptOrRaise c check := by
  cases check with
  | none => rfl
  | some _ => rfl

/-- Settles O20: the writes to `CMD` are O6 and O19, and an accept step reads the lengths only and overwrites `ST` and
`ERR`. -/
theorem commandIssueFromAnyRestingStatus : Obligations.CommandIssueFromAnyRestingStatus := by
  intro s st e hs hst
  obtain ⟨hexpand, hencrypt⟩ := commandsAreWritesToCmd.2.2 s
  have hresting : ({ s with st := st, err := e } : State).st ≠ .busy := hst
  refine ⟨hexpand, hencrypt, fun c => reservedCommandCodeChangesNothing c s, ?_, ?_⟩
  · rw [exec_expand_free hresting, exec_expand_free hs]
    exact congrArg _ (acceptOrRaise_overwrites_status s st e .expand (expandCheck s))
  · rw [exec_encryptPair_free hresting, exec_encryptPair_free hs]
    exact congrArg _ (acceptOrRaise_overwrites_status s st e .encryptPair (encryptPairCheck s))

end Sys2Proof.Machine
end

section
/-! The frame of a write (R191, R192): what the cell of its offset leaves alone. -/

namespace Sys2Proof.Machine

/-- The offset of a cell; none for `reserved`, which many offsets share (R71, R72). -/
def Cell.offset : Cell → Option Nat
  | .cmd => some 0x000
  | .status => some 0x001
  | .err => some 0x002
  | .keylen => some 0x004
  | .blklen => some 0x005
  | .schedlen => some 0x006
  | .keybuf n => some (0x010 + n.val)
  | .blk n => some (0x020 + n.val)
  | .sched n => some (0x100 + n.val)
  | .reserved => none

/-- An offset that is not reserved is the offset of its cell. -/
theorem offset_cellOf {a : Addr} (h : cellOf a ≠ .reserved) : (cellOf a).offset = some a.toNat := by
  unfold cellOf at h ⊢
  split_ifs at h ⊢ with h0 h1 h2 h3 h4 h5 hkey hblk hsched
  iterate 6 (subst a; rfl)
  · exact congrArg some (Nat.add_sub_cancel' hkey.1)
  · exact congrArg some (Nat.add_sub_cancel' hblk.1)
  · exact congrArg some (Nat.add_sub_cancel' hsched.1)
  · exact absurd rfl h

/-- No two offsets name one cell, but for the reserved ones. -/
theorem cellOf_inj {a b : Addr} (ha : cellOf a ≠ .reserved) (h : cellOf b = cellOf a) : b = a := by
  have hb : cellOf b ≠ .reserved := h ▸ ha
  have hoffset : some b.toNat = some a.toNat := (offset_cellOf hb).symm.trans (h ▸ offset_cellOf ha)
  exact BitVec.eq_of_toNat_eq (Option.some.inj hoffset)

theorem cellOf_ne_cmd {a : Addr} (h : a ≠ 0x000) : cellOf a ≠ .cmd :=
  fun hc => h (cellOf_inj (a := 0x000) (by decide) hc)

theorem getElem_set_of_ne {n : Nat} (v : Vector Byte n) {i j : Fin n} (h : j ≠ i) (d : Byte) :
    (v.set i.val d)[j] = v[j] :=
  Vector.getElem_set_ne i.isLt j.isLt fun hij => h (Fin.ext hij.symm)

/-- A write of one cell leaves what every other cell reads as, unless it issues a command. -/
theorem readCell_writeCell_ne (d : Byte) (s : State) {c c' : Cell} (hcmd : c ≠ .cmd) (hne : c' ≠ c) :
    readCell (writeCell d s c) c' = readCell s c' := by
  cases c with
  | cmd => exact absurd rfl hcmd
  | status | err | reserved => rfl
  | keylen =>
    cases c' with
    | keylen => exact absurd rfl hne
    | _ => rfl
  | blklen =>
    cases c' with
    | blklen => exact absurd rfl hne
    | _ => rfl
  | schedlen =>
    cases c' with
    | schedlen => exact absurd rfl hne
    | _ => rfl
  | keybuf n =>
    cases c' with
    | keybuf m => exact congrArg (bufferByte s) (getElem_set_of_ne s.keybuf (fun h => hne (congrArg _ h)) d)
    | _ => rfl
  | blk n =>
    cases c' with
    | blk m => exact congrArg (bufferByte s) (getElem_set_of_ne s.blk (fun h => hne (congrArg _ h)) d)
    | _ => rfl
  | sched n =>
    cases c' with
    | sched m => exact congrArg (bufferByte s) (getElem_set_of_ne s.sched (fun h => hne (congrArg _ h)) d)
    | _ => rfl

/-- Writes to reserved offsets are ignored, so every other offset reads as before, the reserved ones among them. -/
theorem readCell_writeCell_offset_ne (d : Byte) (s : State) {a b : Addr} (ha : a ≠ 0x000) (hne : b ≠ a) :
    readCell (writeCell d s (cellOf a)) (cellOf b) = readCell s (cellOf b) := by
  by_cases hr : cellOf a = .reserved
  · rw [hr, writeCell]
  · exact readCell_writeCell_ne d s (cellOf_ne_cmd ha) fun h => hne (cellOf_inj hr h)

/-- `t` differs from `s` at most in the buffers and the lengths. -/
abbrev State.SameButOperands (s t : State) : Prop :=
  t = { s with keybuf := t.keybuf, blk := t.blk, sched := t.sched,
               keylen := t.keylen, blklen := t.blklen, schedlen := t.schedlen }

/-- `t` differs from `s` at most in `ST`, `ERR`, `PEND` and the model's own two counters. -/
abbrev State.SameButStatus (s t : State) : Prop :=
  t = { s with st := t.st, err := t.err, pend := t.pend, latencyLeft := t.latencyLeft, draws := t.draws }

theorem writeCell_sameButOperands (d : Byte) (s : State) {c : Cell} (h : c ≠ .cmd) :
    s.SameButOperands (writeCell d s c) := by
  cases c with
  | cmd => exact absurd rfl h
  | _ => rfl

theorem acceptOrRaise_sameButStatus (s : State) (c : Command) (check : Option ErrorKind) :
    s.SameButStatus (s.acceptOrRaise c check) := by
  cases check with
  | none => rfl
  | some _ => rfl

theorem issueCommand_sameButStatus (c : Byte) (s : State) : s.SameButStatus (issueCommand c s) := by
  obtain ⟨_, h⟩ | ⟨_, h⟩ | ⟨_, _, h⟩ := issueCommand_cases c s <;> rw [h]
  · exact acceptOrRaise_sameButStatus s .expand _
  · exact acceptOrRaise_sameButStatus s .encryptPair _

/-- What a write that answers `t` has done: nothing while `BUSY`, and otherwise the effect on the cell of its offset. -/
theorem exec_wr_cases {a : Addr} {d : Byte} {s t : State} (h : exec (.wr a d) s = .next t) :
    (s.st = .busy ∧ t = s) ∨ (s.st ≠ .busy ∧ t = writeCell d s (cellOf a)) := by
  by_cases hst : s.st = .busy
  · exact .inl ⟨hst, by simpa [exec_wr_busy hst] using h.symm⟩
  · exact .inr ⟨hst, by simpa [exec_wr_of_cellOf hst rfl] using h.symm⟩

/-- Settles O21: the frame of `writeCell` on the cell of the offset, and no other offset names that cell. -/
theorem writeLeavesEveryOtherByteAlone : Obligations.WriteLeavesEveryOtherByteAlone := by
  intro a d s t h
  obtain ⟨hst, rfl⟩ | ⟨hst, rfl⟩ := exec_wr_cases h
  · exact ⟨fun _ => rfl, fun _ => rfl, fun _ => rfl, fun _ _ _ => rfl⟩
  · refine ⟨fun hbusy => absurd hbusy hst, ?_, fun ha => writeCell_sameButOperands d s (cellOf_ne_cmd ha),
      fun b ha hne => readCell_writeCell_offset_ne d s ha hne⟩
    rintro rfl
    exact issueCommand_sameButStatus d s

end Sys2Proof.Machine
end

section
/-! Who changes `ST`, `ERR` and `PEND`, and who enters `IDLE` (R45, R191). -/

namespace Sys2Proof.Machine

/-- `ST`, `ERR` and `PEND` are the same in two states. -/
abbrev State.SameStatus (s t : State) : Prop :=
  t.st = s.st ∧ t.err = s.err ∧ t.pend = s.pend

theorem State.SameButOperands.sameStatus {s t : State} (h : s.SameButOperands t) : s.SameStatus t :=
  ⟨congrArg (·.st) h, congrArg (·.err) h, congrArg (·.pend) h⟩

/-- The instructions that issue a command: the two commands and the `WR` of their codes to `CMD` (R102, R103, R192). -/
abbrev IssuesCommand (i : Instr) : Prop :=
  i = .expand ∨ i = .encryptPair ∨ i = .wr 0x000 0x01 ∨ i = .wr 0x000 0x02

/-- A command leaves `BUSY` or `ERROR`, accepted or rejected. -/
theorem acceptOrRaise_not_idle (s : State) (c : Command) (check : Option ErrorKind) :
    (s.acceptOrRaise c check).st ≠ .idle := by
  obtain ⟨e, _, h⟩ | ⟨_, h⟩ := acceptOrRaise_cases s c check <;> simp [h]

theorem unlessBusy_not_idle {s : State} {f : State → State} (h : (f s).st ≠ .idle) : (s.unlessBusy f).st ≠ .idle := by
  by_cases hst : s.st = .busy
  · simp [unlessBusy_busy hst, hst]
  · rwa [unlessBusy_free hst]

/-- A write issues a command, which does not leave `IDLE`, or keeps `ST`, `ERR` and `PEND`. -/
theorem writeCell_status_cases (a : Addr) (d : Byte) (s : State) :
    (IssuesCommand (.wr a d) ∧ (writeCell d s (cellOf a)).st ≠ .idle) ∨ s.SameStatus (writeCell d s (cellOf a)) := by
  by_cases ha : a = 0x000
  · subst ha
    have hcell : cellOf 0x000 = .cmd := cellOf_cmd
    rw [hcell, writeCell]
    obtain ⟨rfl, h⟩ | ⟨rfl, h⟩ | ⟨_, _, h⟩ := issueCommand_cases d s <;> rw [h]
    · exact .inl ⟨.inr (.inr (.inl rfl)), acceptOrRaise_not_idle s .expand _⟩
    · exact .inl ⟨.inr (.inr (.inr rfl)), acceptOrRaise_not_idle s .encryptPair _⟩
    · exact .inr ⟨rfl, rfl, rfl⟩
  · exact .inr (writeCell_sameButOperands d s (cellOf_ne_cmd ha)).sameStatus

/-- An instruction issues a command, which does not leave `IDLE`, or keeps `ST`, `ERR` and `PEND`. -/
theorem exec_status_cases {i : Instr} {s t : State} (h : exec i s = .next t) :
    (IssuesCommand i ∧ t.st ≠ .idle) ∨ s.SameStatus t := by
  obtain ⟨a, rfl, _⟩ | ⟨a, d, rfl, _⟩ | ⟨rfl, rfl⟩ | ⟨rfl, rfl⟩ := exec_cases h
  · rw [exec_rd_eq] at h
    cases h
    exact .inr ⟨rfl, rfl, rfl⟩
  · obtain ⟨_, rfl⟩ | ⟨_, rfl⟩ := exec_wr_cases h
    · exact .inr ⟨rfl, rfl, rfl⟩
    · exact writeCell_status_cases a d s
  · exact .inl ⟨.inl rfl, unlessBusy_not_idle (acceptOrRaise_not_idle s .expand _)⟩
  · exact .inl ⟨.inr (.inl rfl), unlessBusy_not_idle (acceptOrRaise_not_idle s .encryptPair _)⟩

theorem exec_idle {i : Instr} {s t : State} (h : exec i s = .next t) (hidle : t.st = .idle) : s.st = .idle := by
  obtain ⟨_, hne⟩ | ⟨hst, _, _⟩ := exec_status_cases h
  · exact absurd hidle hne
  · exact hst ▸ hidle

@[simp] theorem st_passPoll (s : State) : s.passPoll.st = s.st := by
  unfold State.passPoll
  split <;> rfl

@[simp] theorem st_complete (c : Command) (s : State) : (complete c s).st = .done := by
  cases c with
  | expand => rfl
  | encryptPair => rfl

theorem hostMove_ne_reset (s : State) : hostMove s ≠ .reset := by
  obtain ⟨_, h⟩ | ⟨_, _, _, _, _, _, h⟩ | ⟨_, _, _, _, _, _, h⟩ | ⟨_, _, h⟩ | ⟨_, _, _, h⟩ := hostMove_cases s <;>
    simp [h]

/-- Only the reset input makes a reset event the next move (R231). -/
theorem resetIn_of_nextMove_reset {s : State} (h : nextMove s = .reset) : s.resetIn = true := by
  obtain ⟨hreset, _⟩ | ⟨_, _, _, _, hm⟩ | ⟨_, _, hm⟩ := nextMove_cases s
  · exact hreset
  · simp [hm] at h
  · exact absurd (hm.symm.trans h) (hostMove_ne_reset s)

/-- Without a reset event no step enters `IDLE`: a completion leaves `DONE`, and the host's moves keep `ST` or issue a
command. -/
theorem step_idle {s t : State} (h : step s = .next t) (hreset : s.resetIn = false) (hidle : t.st = .idle) :
    s.st = .idle := by
  obtain ⟨hm, _⟩ | ⟨c, _, rfl⟩ | ⟨i, _, hx⟩ | ⟨_, hx⟩ | ⟨bytes, _, rfl⟩ | ⟨_, rfl⟩ := step_cases h
  · simp [resetIn_of_nextMove_reset hm] at hreset
  · simp at hidle
  · exact (State.st_passItem s).symm.trans (exec_idle hx hidle)
  · exact (st_passPoll s).symm.trans (exec_idle hx hidle)
  · exact hidle
  · exact hidle

/-- Settles O30: the step by its moves, and an instruction by whether it issues a command. -/
theorem statusStaysUntilTheNextCommand : Obligations.StatusStaysUntilTheNextCommand := by
  refine ⟨fun s t h hreset hidle => step_idle h hreset hidle, fun i s t h hexp henc hwexp hwenc => ?_⟩
  obtain ⟨hi | hi | hi | hi, _⟩ | hsame := exec_status_cases h
  · exact absurd hi hexp
  · exact absurd hi henc
  · exact absurd hi hwexp
  · exact absurd hi hwenc
  · exact hsame

end Sys2Proof.Machine
end

section
/-! The three errors, each traced from the command to the length check that raises it (R200, R205, R207). -/

namespace Sys2Proof.Machine

theorem expandCheck_some {s : State} {e : ErrorKind} (h : expandCheck s = some e) :
    s.keylen ≠ 16 ∧ e = .invalidKeyLength := by
  unfold expandCheck at h
  split at h
  · cases h
    exact ⟨‹_›, rfl⟩
  · cases h

/-- The block length is checked first (R207), so a schedule length is invalid only beside a valid block length. -/
theorem encryptPairCheck_some {s : State} {e : ErrorKind} (h : encryptPairCheck s = some e) :
    (s.blklen ≠ 32 ∧ e = .invalidBlockLength) ∨
    (s.blklen = 32 ∧ s.schedlen ≠ 176 ∧ e = .invalidScheduleLength) := by
  unfold encryptPairCheck at h
  split at h
  next hblk =>
    cases h
    exact .inl ⟨hblk, rfl⟩
  next hblk =>
    split at h
    next hsched =>
      cases h
      exact .inr ⟨not_not.mp hblk, hsched, rfl⟩
    next => cases h

/-- A command, its accept step ignored while `BUSY`, leaves `ERROR` only outside `BUSY` and by the error that its check
names. -/
theorem unlessBusy_acceptOrRaise_error {s : State} {c : Command} {check : State → Option ErrorKind}
    (h : (s.unlessBusy fun s => s.acceptOrRaise c (check s)).st = .error) :
    s.st ≠ .busy ∧ ∃ e, check s = some e ∧ (s.unlessBusy fun s => s.acceptOrRaise c (check s)).err = e.code := by
  by_cases hst : s.st = .busy
  · simp [unlessBusy_busy hst, hst] at h
  · rw [unlessBusy_free hst] at h ⊢
    obtain ⟨e, he, hraise⟩ | ⟨_, haccept⟩ := acceptOrRaise_cases s c (check s)
    · exact ⟨hst, e, he, congrArg State.err hraise⟩
    · simp [haccept] at h

theorem exec_expand_error {s t : State} (h : exec .expand s = .next t) (herror : t.st = .error) :
    s.st ≠ .busy ∧ s.keylen ≠ 16 ∧ t.err = 0x01 := by
  obtain rfl : s.unlessBusy expandAccept = t := Host.Outcome.next.inj h
  obtain ⟨hst, e, hcheck, herr⟩ := unlessBusy_acceptOrRaise_error herror
  obtain ⟨hkey, rfl⟩ := expandCheck_some hcheck
  exact ⟨hst, hkey, herr⟩

theorem exec_encryptPair_error {s t : State} (h : exec .encryptPair s = .next t) (herror : t.st = .error) :
    s.st ≠ .busy ∧
      ((s.blklen ≠ 32 ∧ t.err = 0x02) ∨ (s.blklen = 32 ∧ s.schedlen ≠ 176 ∧ t.err = 0x03)) := by
  obtain rfl : s.unlessBusy encryptPairAccept = t := Host.Outcome.next.inj h
  obtain ⟨hst, e, hcheck, herr⟩ := unlessBusy_acceptOrRaise_error herror
  obtain ⟨hblk, rfl⟩ | ⟨hblk, hsched, rfl⟩ := encryptPairCheck_some hcheck
  · exact ⟨hst, .inl ⟨hblk, herr⟩⟩
  · exact ⟨hst, .inr ⟨hblk, hsched, herr⟩⟩

/-- An instruction that issues a command does what the command does: the `WR` of its code is the command (R102, R103). -/
theorem exec_of_issuesCommand {i : Instr} (h : IssuesCommand i) (s : State) :
    ((i = .expand ∨ i = .wr 0x000 0x01) ∧ exec i s = exec .expand s) ∨
    ((i = .encryptPair ∨ i = .wr 0x000 0x02) ∧ exec i s = exec .encryptPair s) := by
  obtain ⟨hexpand, hencrypt⟩ := commandsAreWritesToCmd.2.2 s
  obtain rfl | rfl | rfl | rfl := h
  · exact .inl ⟨.inl rfl, rfl⟩
  · exact .inr ⟨.inl rfl, rfl⟩
  · exact .inl ⟨.inr rfl, hexpand⟩
  · exact .inr ⟨.inr rfl, hencrypt⟩

/-- Settles O29: an instruction keeps `ST` and `ERR` or issues a command, and each command's errors are those of its
check. -/
theorem threeErrorsAndTheirCauses : Obligations.ThreeErrorsAndTheirCauses := by
  intro i s t h herror
  obtain ⟨hissues, _⟩ | ⟨hst, herr, _⟩ := exec_status_cases h
  · obtain ⟨hi, hexec⟩ | ⟨hi, hexec⟩ := exec_of_issuesCommand hissues s
    · obtain ⟨hfree, hkey, herr⟩ := exec_expand_error (hexec.symm.trans h) herror
      exact .inr (.inl ⟨hfree, hi, hkey, herr⟩)
    · obtain ⟨hfree, ⟨hblk, herr⟩ | ⟨hblk, hsched, herr⟩⟩ := exec_encryptPair_error (hexec.symm.trans h) herror
      · exact .inr (.inr (.inl ⟨hfree, hi, hblk, herr⟩))
      · exact .inr (.inr (.inr ⟨hfree, hi, hblk, hsched, herr⟩))
  · exact .inl ⟨hst ▸ herror, herr⟩

end Sys2Proof.Machine
end

section
/-! The decoder and the encoder, each the other's inverse (R91 to R98). -/

namespace Sys2Proof.Machine

/-! The command map (R95, R97). -/

/-- What the command map says of a byte. -/
theorem decodeCommand_cases (c : Byte) :
    (c = 0x01 ∧ decodeCommand c = .ok .expand) ∨
    (c = 0x02 ∧ decodeCommand c = .ok .encryptPair) ∨
    (c ≠ 0x01 ∧ c ≠ 0x02 ∧ decodeCommand c = .error .reservedCommandCode) := by
  unfold decodeCommand
  split
  · exact .inl ⟨‹_›, rfl⟩
  · split
    · exact .inr (.inl ⟨‹_›, rfl⟩)
    · exact .inr (.inr ⟨‹_›, ‹_›, rfl⟩)

/-- Settles O5: the three cases of the command map exclude each other. -/
theorem commandMapIsComplete : Obligations.CommandMapIsComplete := by
  intro c
  obtain ⟨rfl, h⟩ | ⟨rfl, h⟩ | ⟨hexpand, hencrypt, h⟩ := decodeCommand_cases c
  · decide
  · decide
  · simpa [h] using ⟨hexpand, hencrypt, hexpand, hencrypt⟩

/-! The fields of a word (R91). -/

/-- A word is put together again from its fields. -/
@[simp] theorem htWord_fields (w : HtWord) : htWord (htKind w) (htAddr w) (htData w) = w := by
  have hkind : htKind w ++ htAddr w = w.extractLsb' 8 16 := BitVec.extractLsb'_append_extractLsb'_eq_extractLsb' rfl
  have hdata : w.extractLsb' 8 16 ++ htData w = w.extractLsb' 0 24 :=
    BitVec.extractLsb'_append_extractLsb'_eq_extractLsb' rfl
  rw [htWord, hkind, hdata, BitVec.extractLsb'_eq_self]

/-- What the decoder says of a word, by its kind and data. -/
theorem decode_cases (w : HtWord) :
    (htKind w = 0x0 ∧ htData w = 0x00 ∧ decode w = .ok (.rd (htAddr w))) ∨
    (htKind w = 0x0 ∧ htData w ≠ 0x00 ∧ decode w = .error .readWithData) ∨
    (htKind w = 0x1 ∧ decode w = .ok (decodeWrite (htAddr w) (htData w))) ∨
    (2 ≤ (htKind w).toNat ∧ decode w = .error .reservedKind) := by
  unfold decode
  split
  · split
    · exact .inl ⟨‹_›, ‹_›, rfl⟩
    · exact .inr (.inl ⟨‹_›, ‹_›, rfl⟩)
  · split
    · exact .inr (.inr (.inl ⟨‹_›, rfl⟩))
    · exact .inr (.inr (.inr ⟨by bv_omega, rfl⟩))

/-- A `WR` is well formed when it is not the word of a command. -/
theorem wellFormed_wr_iff (a : Addr) (d : Byte) :
    (Instr.wr a d).wellFormed = true ↔ (a = 0x000 → d ≠ 0x01 ∧ d ≠ 0x02) := by
  simp [Instr.wellFormed, isCommandCode, imp_iff_not_or]

/-- The instruction of a word of kind 0x1 is well formed and has that word (R93, R102, R103). -/
theorem decodeWrite_wellFormed_encode (a : Addr) (d : Byte) :
    (decodeWrite a d).wellFormed = true ∧ encode (decodeWrite a d) = htWord 0x1 a d := by
  unfold decodeWrite
  split
  next ha =>
    subst ha
    obtain ⟨rfl, h⟩ | ⟨rfl, h⟩ | ⟨hexpand, hencrypt, h⟩ := decodeCommand_cases d
    · exact ⟨rfl, rfl⟩
    · exact ⟨rfl, rfl⟩
    · rw [h]
      exact ⟨(wellFormed_wr_iff _ _).mpr fun _ => ⟨hexpand, hencrypt⟩, rfl⟩
  next ha => exact ⟨(wellFormed_wr_iff a d).mpr fun h => absurd h ha, rfl⟩

/-- A well-formed `WR` is what its address and data decode to. -/
theorem decodeWrite_of_wellFormed {a : Addr} {d : Byte} (h : (Instr.wr a d).wellFormed = true) :
    decodeWrite a d = .wr a d := by
  unfold decodeWrite
  split
  next ha =>
    subst ha
    obtain ⟨hexpand, hencrypt⟩ := (wellFormed_wr_iff _ _).mp h rfl
    obtain ⟨hd, _⟩ | ⟨hd, _⟩ | ⟨_, _, hreserved⟩ := decodeCommand_cases d
    · exact absurd hd hexpand
    · exact absurd hd hencrypt
    · rw [hreserved]
  next => rfl

/-- A word put together with kind 0x1 is a write (R93). -/
theorem decode_htWord_write (a : Addr) (d : Byte) : decode (htWord 0x1 a d) = .ok (decodeWrite a d) := by
  simp [decode]

/-- Settles O1: by instruction; the words of the writes and the commands are of kind 0x1. -/
theorem decodeAfterEncode : Obligations.DecodeAfterEncode := by
  intro i hwf
  cases i with
  | rd a => exact decode_encode_rd a
  | wr a d => rw [encode, decode_htWord_write, decodeWrite_of_wellFormed hwf]
  | expand => exact decode_htWord_write Offset.cmd CommandCode.expand
  | encryptPair => exact decode_htWord_write Offset.cmd CommandCode.encryptPair

/-- Settles O2: a word that decodes has kind 0x0 and no data, or kind 0x1, and is put together again from its fields. -/
theorem encodeAfterDecode : Obligations.EncodeAfterDecode := by
  intro w i hw
  have hfields := htWord_fields w
  obtain ⟨hkind, hdata, h⟩ | ⟨_, _, h⟩ | ⟨hkind, h⟩ | ⟨_, h⟩ := decode_cases w <;> rw [h] at hw <;> cases hw
  · exact ⟨rfl, by rwa [hkind, hdata] at hfields⟩
  · rw [hkind] at hfields
    exact (decodeWrite_wellFormed_encode _ _).imp_right fun hencode => hencode.trans hfields

/-- Settles O4: the decoder run on the words. -/
theorem wordsTheSpecWritesOut : Obligations.WordsTheSpecWritesOut := by
  unfold Obligations.WordsTheSpecWritesOut
  decide

end Sys2Proof.Machine
end

section
/-! The host's next word: a transaction is run, a reserved word refused (R16, R98). -/

namespace Sys2Proof.Machine

/-- The host moves when no reset event is due and no completion. -/
theorem nextMove_eq_hostMove {s : State} (hreset : s.resetIn = false)
    (hpend : s.pend = none ∨ (s.latencyLeft ≠ 0 ∧ s.script ≠ [])) : nextMove s = hostMove s := by
  obtain ⟨h, _⟩ | ⟨_, c, hc, hdue, _⟩ | ⟨_, _, h⟩ := nextMove_cases s
  · simp [hreset] at h
  · obtain hnone | ⟨hlat, hscript⟩ := hpend
    · simp [hnone] at hc
    · exact absurd hdue (by simp [hlat, hscript])
  · exact h

/-- The same where the script has an item. -/
theorem nextMove_of_script_cons {s : State} {item : HostItem} {rest : List HostItem} (hreset : s.resetIn = false)
    (hpend : s.pend = none ∨ s.latencyLeft ≠ 0) (hscript : s.script = item :: rest) : nextMove s = hostMove s :=
  nextMove_eq_hostMove hreset (hpend.imp_right fun hlat => ⟨hlat, by simp [hscript]⟩)

theorem hostMove_of_decode_ok {s : State} {w : HtWord} {joins : Bool} {rest : List HostItem} {i : Instr}
    (hscript : s.script = .word w joins :: rest) (h : decode w = .ok i) : hostMove s = .transact i := by
  simp [hostMove, hscript, h]

theorem hostMove_of_decode_error {s : State} {w : HtWord} {joins : Bool} {rest : List HostItem} {e : DecodeError}
    (hscript : s.script = .word w joins :: rest) (h : decode w = .error e) : hostMove s = .reserved w e := by
  simp [hostMove, hscript, h]

/-- With a word placed the host moves next: that is what placing it is for (log entry 5). -/
theorem nextMove_withScriptWord (s : State) (w : HtWord) :
    nextMove (s.withScriptWord w) = hostMove (s.withScriptWord w) := by
  refine nextMove_of_script_cons (State.resetIn_withScriptWord s w) ?_ (State.script_withScriptWord s w)
  by_cases hpend : s.pend = none
  · exact .inl hpend
  · exact .inr (by simp [hpend])

/-- A transaction placed as the host's next is run in the very next step. -/
theorem step_withScriptWord_of_decode_ok (s : State) {w : HtWord} {i : Instr} (h : decode w = .ok i) :
    step (s.withScriptWord w) = exec i (s.withScriptWord w).passItem := by
  rw [step, nextMove_withScriptWord, hostMove_of_decode_ok (State.script_withScriptWord s w) h]

/-- A reserved word placed as the host's next is refused in the very next step. -/
theorem step_withScriptWord_of_decode_error (s : State) {w : HtWord} {e : DecodeError} (h : decode w = .error e) :
    step (s.withScriptWord w) = .refused (.reservedWord w e) := by
  rw [step, nextMove_withScriptWord, hostMove_of_decode_error (State.script_withScriptWord s w) h]

/-- A write to a reserved offset changes nothing, in any state (R72). -/
theorem exec_wr_reserved {a : Addr} (h : ReservedOffset a) (d : Byte) (s : State) : exec (.wr a d) s = .next s := by
  by_cases hst : s.st = .busy
  · exact exec_wr_busy hst a d
  · exact exec_wr_of_cellOf hst (cellOf_reserved h) d

/-- A write to a reserved offset is spelled in one way only. -/
theorem wellFormed_wr_reserved {a : Addr} (h : ReservedOffset a) (d : Byte) : (Instr.wr a d).wellFormed = true := by
  refine (wellFormed_wr_iff a d).mpr ?_
  rintro rfl
  exact absurd h (by decide)

/-- Settles O3: the four cases of the decoder, the step on a placed word, and the reserved cell. -/
theorem reservedWordsAndReservedAddresses : Obligations.ReservedWordsAndReservedAddresses := by
  refine ⟨fun w hw => ?_, fun w hw => ?_, fun a d s ha => ⟨?_, ?_, ?_, exec_wr_reserved ha d s⟩⟩
  · obtain ⟨e, he⟩ : ∃ e, decode w = .error e := by
      obtain ⟨hkind, hdata, _⟩ | ⟨_, _, h⟩ | ⟨hkind, _⟩ | ⟨_, h⟩ := decode_cases w
      · simp [hkind, hdata] at hw
      · exact ⟨_, h⟩
      · simp [hkind] at hw
      · exact ⟨_, h⟩
    exact ⟨e, he, fun s => step_withScriptWord_of_decode_error s he⟩
  · obtain ⟨_, _, h⟩ | ⟨hkind, hdata, _⟩ | ⟨_, h⟩ | ⟨hkind, _⟩ := decode_cases w
    · exact ⟨_, h⟩
    · obtain ⟨_, h⟩ | h := hw
      · exact absurd h hdata
      · simp [hkind] at h
    · exact ⟨_, h⟩
    · obtain ⟨h, _⟩ | h := hw <;> simp [h] at hkind
  · exact decode_encode_rd a
  · exact decodeAfterEncode (.wr a d) (wellFormed_wr_reserved ha d)
  · exact exec_rd_of_cellOf (cellOf_reserved ha) rfl

/-- A command's byte travels in the command's own word (R90, R102, R103). -/
theorem commandWord_eq_encode {c : Byte} {i : Instr} (h : decodeCommand c = .ok i) :
    i.wellFormed = true ∧ commandWord c = encode i := by
  obtain ⟨rfl, hc⟩ | ⟨rfl, hc⟩ | ⟨_, _, hc⟩ := decodeCommand_cases c <;> rw [hc] at h <;> cases h
  · exact ⟨rfl, rfl⟩
  · exact ⟨rfl, rfl⟩

/-- The word of a well-formed instruction, placed as the host's next, runs it. -/
theorem step_withScriptWord_encode (s : State) {i : Instr} (hwf : i.wellFormed = true) :
    step (s.withScriptWord (encode i)) = exec i (s.withScriptWord (encode i)).passItem :=
  step_withScriptWord_of_decode_ok s (decodeAfterEncode i hwf)

/-- Settles O8: a table word of 24 bits is the placed word itself, and one of 8 bits the command's word. -/
theorem placedInstructionRunsNext : Obligations.PlacedInstructionRunsNext := by
  refine ⟨fun s i hwf => ?_, fun s c i hc => ?_⟩
  · have hword : tableWord 24 (encode i).toNat = encode i := by simp [tableWord]
    rw [State.withFetchWord, hword, step_withScriptWord_encode s hwf]
  · obtain ⟨hwf, hcommand⟩ := commandWord_eq_encode hc
    have hword : tableWord 8 c.toNat = encode i := by simp [tableWord, hcommand]
    rw [State.withFetchWord, hword, step_withScriptWord_encode s hwf]

/-- Only a move on a reserved word is refused: every instruction answers. -/
theorem nextMove_of_step_refused {s : State} {r : Refusal} (h : step s = .refused r) :
    ∃ w e, nextMove s = .reserved w e ∧ r = .reservedWord w e := by
  have hexec (i : Instr) (t : State) : exec i t ≠ .refused r := by
    obtain ⟨u, hu⟩ := everyInstructionAnswers i t
    simp [hu]
  rw [step] at h
  cases hm : nextMove s with
  | transact i => rw [hm] at h; exact absurd h (hexec i _)
  | poll => rw [hm] at h; exact absurd h (hexec _ _)
  | reserved w e => rw [hm] at h; exact ⟨w, e, rfl, by simpa using h.symm⟩
  | _ => rw [hm] at h; cases h

/-- A move that is neither a reset event nor a completion is the host's, and no completion is due. -/
theorem hostMove_of_nextMove {s : State} {m : Move} (h : nextMove s = m) (hreset : m ≠ .reset)
    (hcomplete : ∀ c, m ≠ .complete c) :
    hostMove s = m ∧ (s.pend = none ∨ (s.latencyLeft ≠ 0 ∧ s.script ≠ [])) := by
  subst h
  obtain ⟨_, hm⟩ | ⟨_, c, _, _, hm⟩ | ⟨_, hpend, hm⟩ := nextMove_cases s
  · exact absurd hm hreset
  · exact absurd hm (hcomplete c)
  · exact ⟨hm.symm, hpend⟩

/-- A reserved word that comes next is the host's next script item. -/
theorem script_of_nextMove_reserved {s : State} {w : HtWord} {e : DecodeError} (h : nextMove s = .reserved w e) :
    ∃ joins rest, s.script = .word w joins :: rest ∧ decode w = .error e := by
  obtain ⟨hhost, _⟩ := hostMove_of_nextMove h nofun nofun
  simpa [hhost] using hostMove_cases s

/-- Settles O10: there is no fault to stop with, and a refusal is a move on a reserved word. -/
theorem onlyReservedWordsStopTheMachine : Obligations.OnlyReservedWordsStopTheMachine := by
  refine ⟨fun _ r => (nomatch r), fun s r h => ?_⟩
  obtain ⟨w, e, hm, rfl⟩ := nextMove_of_step_refused h
  obtain ⟨joins, rest, hscript, hdecode⟩ := script_of_nextMove_reserved hm
  exact ⟨w, joins, rest, e, hscript, hdecode, rfl⟩

/-- Settles O7: the host's move is the decoded transaction, and `passItem` is the bookkeeping around it. -/
theorem stepRunsTheDecodedTransaction : Obligations.StepRunsTheDecodedTransaction := by
  intro s w joins rest i hreset hpend hscript hdecode
  rw [step, nextMove_of_script_cons hreset hpend hscript, hostMove_of_decode_ok hscript hdecode]
  simp only [State.passItem, nextReadFrom_cons hscript, beginsRead_word joins hdecode, hscript, List.tail_cons]
  cases i <;> cases joins <;> rfl

end Sys2Proof.Machine
end

section
/-! Reads and writes seen together: what a read leaves (R70), and what a read after a write returns. -/

namespace Sys2Proof.Machine

/-- The offset of a cell is the only one that names it (R71). -/
theorem toNat_of_cellOf {a : Addr} {c : Cell} {n : Nat} (hc : cellOf a = c) (hn : c.offset = some n) : a.toNat = n := by
  subst hc
  have hne : cellOf a ≠ .reserved := fun h => by simp [h, Cell.offset] at hn
  exact Option.some.inj ((offset_cellOf hne).symm.trans hn)

/-- Only a read of a buffer while `BUSY` takes a free value (R242). -/
theorem bufferOffset_of_readDraws {a : Addr} {s : State} (h : readDraws s (cellOf a) = true) :
    BufferOffset a ∧ s.st = .busy := by
  cases hc : cellOf a with
  | keybuf n | blk n | sched n =>
    have ha := toNat_of_cellOf hc rfl
    exact ⟨by omega, by simpa [hc, readDraws] using h⟩
  | _ => simp [hc, readDraws] at h

/-- A read that takes no free value hands the byte of its offset to the host, and nothing else changes. -/
theorem exec_rd_of_not_busy_buffer {a : Addr} {s : State} (h : ¬ (BufferOffset a ∧ s.st = .busy)) :
    exec (.rd a) s = .next (s.pushReturned (readCell s (cellOf a))) :=
  exec_rd_of_cellOf rfl (Bool.eq_false_iff.mpr fun hdraws => h (bufferOffset_of_readDraws hdraws))

/-- The cells hold the same bytes whatever has been returned. -/
@[simp] theorem readCell_pushReturned (s : State) (b : Byte) (c : Cell) :
    readCell (s.pushReturned b) c = readCell s c := by
  cases c <;> rfl

/-- Settles O16: the state after a read is spelled out by `exec_rd_eq`, and outside `BUSY` it takes no free value. -/
theorem readChangesNoState : Obligations.ReadChangesNoState := by
  intro a s t h
  refine ⟨?_, fun hbuffer => ?_, fun c hst => ?_⟩
  · rw [exec_rd_eq] at h
    cases h
    exact ⟨_, rfl⟩
  · rw [exec_rd_of_not_busy_buffer hbuffer] at h
    cases h
    rfl
  · rw [exec_rd_free hst] at h
    cases h
    exact readCell_pushReturned s _ c

/-- Settles O17: the first read leaves what the second returns. -/
theorem repeatedReadReturnsTheSameByte : Obligations.RepeatedReadReturnsTheSameByte := by
  intro a s t u hbuffer ht hu
  rw [exec_rd_of_not_busy_buffer hbuffer] at ht
  cases ht
  rw [exec_rd_of_not_busy_buffer (s := s.pushReturned _) hbuffer, readCell_pushReturned] at hu
  cases hu
  exact ⟨readCell s (cellOf a), by simp⟩

/-! A read after a write. -/

/-- The cells that hold what is written to them (R191). -/
def Cell.Holds : Cell → Prop
  | .keylen | .blklen | .schedlen | .keybuf _ | .blk _ | .sched _ => True
  | .cmd | .status | .err | .reserved => False

/-- The length registers and the buffers hold what is written to them. -/
theorem cellOf_holds {a : Addr} (h : a = 0x004 ∨ a = 0x005 ∨ a = 0x006 ∨ BufferOffset a) : (cellOf a).Holds := by
  obtain rfl | rfl | rfl | hbuffer := h
  · trivial
  · trivial
  · trivial
  · obtain ⟨n, hc⟩ | ⟨n, hc⟩ | ⟨n, hc⟩ := cellOf_bufferOffset hbuffer <;> rw [hc] <;> trivial

/-- Outside `BUSY` such a cell then reads as the byte written. -/
theorem readCell_writeCell_self {s : State} (hst : s.st ≠ .busy) (d : Byte) {c : Cell} (hc : c.Holds) :
    readCell (writeCell d s c) c = d := by
  cases c with
  | cmd | status | err | reserved => exact hc.elim
  | keylen | blklen | schedlen => rfl
  | keybuf n | blk n | sched n => exact (bufferByte_free hst _).trans (Vector.getElem_set_self n.isLt)

/-- A write to such a cell leaves `ST` as it was. -/
theorem st_writeCell (d : Byte) (s : State) {c : Cell} (hc : c.Holds) : (writeCell d s c).st = s.st := by
  have hcmd : c ≠ .cmd := by rintro rfl; exact hc
  obtain ⟨hst, _⟩ := (writeCell_sameButOperands d s hcmd).sameStatus
  exact hst

/-- Settles O22: the write acts on the cell of its offset, and the read returns what that cell holds. -/
theorem readReturnsTheByteWritten : Obligations.ReadReturnsTheByteWritten := by
  intro a d s hst ha
  have hholds := cellOf_holds ha
  have hfree : (writeCell d s (cellOf a)).st ≠ .busy := by rwa [st_writeCell d s hholds]
  refine ⟨_, _, exec_wr_of_cellOf hst rfl d, exec_rd_free hfree a, ?_⟩
  rw [State.returned_pushReturned, readCell_writeCell_self hst d hholds, (writeCell_keeps_host d s _).2]

/-! `BUSY`, and the accept steps outside it. -/

/-- Settles O23: every write and every command stands behind the one check of `BUSY` (R240). -/
theorem busyIgnoresEveryWrite : Obligations.BusyIgnoresEveryWrite :=
  fun _ hst => ⟨exec_wr_busy hst, congrArg _ (unlessBusy_busy hst _), congrArg _ (unlessBusy_busy hst _)⟩

theorem exec_expand_of_check {s : State} {check : Option ErrorKind} (hst : s.st ≠ .busy)
    (hcheck : expandCheck s = check) : exec .expand s = .next (s.acceptOrRaise .expand check) := by
  rw [exec_expand_free hst, expandAccept, hcheck]

theorem exec_encryptPair_of_check {s : State} {check : Option ErrorKind} (hst : s.st ≠ .busy)
    (hcheck : encryptPairCheck s = check) : exec .encryptPair s = .next (s.acceptOrRaise .encryptPair check) := by
  rw [exec_encryptPair_free hst, encryptPairAccept, hcheck]

/-- Settles O24: the length check decides between rejection and acceptance. -/
theorem expandAcceptStep : Obligations.ExpandAcceptStep :=
  fun s hst => ⟨fun hkey => exec_expand_of_check hst (if_pos hkey),
    fun hkey => exec_expand_of_check hst ((expandCheck_none s).mpr hkey)⟩

/-- Settles O25: the two length checks decide, the block length first (R207). -/
theorem encryptPairAcceptStep : Obligations.EncryptPairAcceptStep :=
  fun s hst => ⟨fun hblk => exec_encryptPair_of_check hst (if_pos hblk),
    fun hblk hsched => exec_encryptPair_of_check hst ((if_neg (not_not.mpr hblk)).trans (if_pos hsched)),
    fun hblk hsched => exec_encryptPair_of_check hst ((encryptPairCheck_none s).mpr ⟨hblk, hsched⟩)⟩

end Sys2Proof.Machine
end

section
/-! What reset leaves (R230), and the end of a run (R246). -/

namespace Sys2Proof.Machine

theorem unwrittenBuffer_get {n : Nat} (base : Addr) (draw : Nat) (k : Fin n) :
    (unwrittenBuffer n base draw)[k] = Config.unwritten draw (base.toNat + k.val) := by
  simp [unwrittenBuffer]

/-- Settles O12: the fields of the state after reset, its two reads, and its buffers, all of draw 0. -/
theorem resetLeavesTheListedValues : Obligations.ResetLeavesTheListedValues := by
  refine ⟨rfl, rfl, rfl, rfl, rfl, rfl, ?cmd, ?status, 0, unwrittenBuffer_get _ 0, unwrittenBuffer_get _ 0,
    unwrittenBuffer_get _ 0⟩
  case cmd => exact exec_rd_of_cellOf cellOf_cmd rfl
  case status => exact exec_rd_status State.reset

theorem step_of_resetIn {s : State} (h : s.resetIn = true) : step s = .next s.resetEvent := by
  have hm : nextMove s = .reset := if_pos h
  rw [step, hm]

/-- Settles O14: the lengths after a reset event are 0x00, which no command accepts (R230). -/
theorem commandsAreRejectedAfterReset : Obligations.CommandsAreRejectedAfterReset := by
  intro s t hreset hstep
  rw [step_of_resetIn hreset] at hstep
  cases hstep
  have hst : s.resetEvent.st ≠ .busy := nofun
  obtain ⟨hexpand, _⟩ := expandAcceptStep s.resetEvent hst
  obtain ⟨hencrypt, _⟩ := encryptPairAcceptStep s.resetEvent hst
  have hlen : (0x00 : Byte) ≠ 16 ∧ (0x00 : Byte) ≠ 32 := by decide
  exact ⟨hexpand hlen.1, hencrypt hlen.2⟩

@[simp] theorem pend_complete (c : Command) (s : State) : (complete c s).pend = none := by
  cases c <;> rfl

/-- A completion leaves the host's side as it was. -/
theorem complete_keeps_host (c : Command) (s : State) :
    s.SameHost (complete c s) ∧ (complete c s).returned = s.returned := by
  cases c with
  | expand => simp [complete, expandComplete, State.SameHost]
  | encryptPair => simp [complete, encryptPairComplete, State.SameHost]

/-- With the script over and nothing pending, nothing moves (R246). -/
theorem step_of_script_nil {s : State} (hreset : s.resetIn = false) (hscript : s.script = [])
    (hpend : s.pend = none) : step s = .next s := by
  have hover : hostMove s = .over := by rw [hostMove, hscript]
  rw [step, nextMove_eq_hostMove hreset (.inl hpend), hover]

/-- Settles O11: a completion still owed comes at once, and after it nothing is pending. -/
theorem endOfARun : Obligations.EndOfARun := by
  refine ⟨fun s hreset hscript hpend => step_of_script_nil hreset hscript hpend, fun s c hreset hscript hpend => ?_⟩
  obtain ⟨⟨hreset', hscript', _⟩, _⟩ := complete_keeps_host c s
  exact ⟨step_of_nextMove_complete (nextMove_complete_of_due hreset hpend (.inr hscript)),
    step_of_script_nil (hreset'.trans hreset) (hscript'.trans hscript) (pend_complete c s)⟩

end Sys2Proof.Machine
end

section
/-! The invariant of status, error and pending command (R44, R48, R50), kept by every step. -/

namespace Sys2Proof.Machine

/-! What keeps the core, and what keeps the invariant because it changes nothing the invariant speaks of. -/

theorem State.SameOperands.trans {s t u : State} (hst : s.SameOperands t) (htu : t.SameOperands u) :
    s.SameOperands u := by
  obtain ⟨hkey, hblk, hsched, hkeylen, hblklen, hschedlen⟩ := hst
  rwa [State.SameOperands, hkey, hblk, hsched, hkeylen, hblklen, hschedlen] at htu

theorem State.SameCore.refl (s : State) : s.SameCore s := ⟨⟨rfl, rfl, rfl, rfl, rfl, rfl⟩, rfl, rfl, rfl⟩

theorem State.SameCore.trans {s t u : State} (hst : s.SameCore t) (htu : t.SameCore u) : s.SameCore u := by
  obtain ⟨hops, hstatus, herr, hpend⟩ := hst
  obtain ⟨hops', hstatus', herr', hpend'⟩ := htu
  exact ⟨hops.trans hops', hstatus'.trans hstatus, herr'.trans herr, hpend'.trans hpend⟩

theorem State.SameCore.inv {s t : State} (h : s.SameCore t) (hs : s.Inv) : t.Inv := by
  obtain ⟨⟨_, _, _, hkeylen, hblklen, hschedlen⟩, hst, herr, hpend⟩ := h
  rwa [State.Inv, hst, herr, hpend, hkeylen, hblklen, hschedlen]

theorem State.Inv.pend_eq_none {s : State} (hs : s.Inv) (hst : s.st ≠ .busy) : s.pend = none :=
  not_not.mp fun hpend => hst (hs.1.mpr hpend)

/-- With nothing pending the lengths are free: a write to them keeps the invariant. -/
theorem State.SameStatus.inv {s t : State} (h : s.SameStatus t) (hs : s.Inv) (hst : s.st ≠ .busy) : t.Inv := by
  have hnone := hs.pend_eq_none hst
  obtain ⟨hbusy, herror, hle, _, _⟩ := hs
  obtain ⟨hst', herr', hpend'⟩ := h
  simp only [State.Inv, hst', herr', hpend', hnone] at hbusy ⊢
  exact ⟨hbusy, herror, hle, by simp, by simp⟩

/-! Accepting, rejecting, completing and resetting. -/

/-- The codes of the three errors (R200). -/
theorem ErrorKind.code_cases (e : ErrorKind) : e.code = 0x01 ∨ e.code = 0x02 ∨ e.code = 0x03 := by
  cases e with
  | invalidKeyLength => exact .inl rfl
  | invalidBlockLength => exact .inr (.inl rfl)
  | invalidScheduleLength => exact .inr (.inr rfl)

/-- A rejection, with nothing pending, leaves `ERROR` and a code that is not 0. -/
theorem raise_inv {s : State} (hpend : s.pend = none) (e : ErrorKind) : (s.raise e).Inv := by
  obtain h | h | h := e.code_cases <;> simp [State.Inv, hpend, h]

/-- An acceptance leaves `BUSY` and the command pending, its lengths checked. -/
theorem accept_inv {s : State} {c : Command} (hexpand : c = .expand → s.keylen = 16)
    (hencrypt : c = .encryptPair → s.blklen = 32 ∧ s.schedlen = 176) : (s.accept c).Inv := by
  refine ⟨by simp, by simp, by simp, fun h => hexpand ?_, fun h => hencrypt ?_⟩ <;> simpa using h

theorem expandAccept_inv {s : State} (hpend : s.pend = none) : (expandAccept s).Inv := by
  rw [expandAccept]
  obtain ⟨e, _, h⟩ | ⟨hcheck, h⟩ := acceptOrRaise_cases s .expand (expandCheck s) <;> rw [h]
  · exact raise_inv hpend e
  · exact accept_inv (fun _ => (expandCheck_none s).mp hcheck) nofun

theorem encryptPairAccept_inv {s : State} (hpend : s.pend = none) : (encryptPairAccept s).Inv := by
  rw [encryptPairAccept]
  obtain ⟨e, _, h⟩ | ⟨hcheck, h⟩ := acceptOrRaise_cases s .encryptPair (encryptPairCheck s) <;> rw [h]
  · exact raise_inv hpend e
  · exact accept_inv nofun (fun _ => (encryptPairCheck_none s).mp hcheck)

@[simp] theorem err_complete (c : Command) (s : State) : (complete c s).err = s.err := by
  cases c with
  | expand => rw [complete, expandComplete, State.err_finishExpand]
  | encryptPair => rw [complete, encryptPairComplete, State.err_finishEncryptPair]

/-- A completion leaves `DONE` and nothing pending; `ERR` was 0x00 while the command was in flight. -/
theorem complete_inv {s : State} (hs : s.Inv) {c : Command} (hpend : s.pend = some c) : (complete c s).Inv := by
  obtain ⟨hbusy, herror, _⟩ := hs
  have hst : s.st = .busy := hbusy.mpr (by simp [hpend])
  have herr : s.err = 0x00 := by simpa [hst] using herror
  simp [State.Inv, herr]

/-- The values of a reset event meet the invariant (R230). -/
theorem resetEvent_inv (s : State) : s.resetEvent.Inv := by simp [State.Inv]

/-! Each instruction, then each step. -/

theorem unlessBusy_inv {s : State} {f : State → State} (hs : s.Inv) (h : s.pend = none → (f s).Inv) :
    (s.unlessBusy f).Inv := by
  by_cases hst : s.st = .busy
  · rwa [unlessBusy_busy hst]
  · rw [unlessBusy_free hst]
    exact h (hs.pend_eq_none hst)

theorem writeCell_inv {s : State} (hs : s.Inv) (hst : s.st ≠ .busy) (d : Byte) (c : Cell) : (writeCell d s c).Inv := by
  by_cases hc : c = .cmd
  · subst hc
    have hpend := hs.pend_eq_none hst
    obtain ⟨_, h⟩ | ⟨_, h⟩ | ⟨_, _, h⟩ := issueCommand_cases d s <;> rw [writeCell, h]
    · exact expandAccept_inv hpend
    · exact encryptPairAccept_inv hpend
    · exact hs
  · exact (writeCell_sameButOperands d s hc).sameStatus.inv hs hst

theorem exec_keeps_inv {i : Instr} {s t : State} (hs : s.Inv) (h : exec i s = .next t) : t.Inv := by
  obtain ⟨a, rfl, _⟩ | ⟨a, d, rfl, _⟩ | ⟨rfl, rfl⟩ | ⟨rfl, rfl⟩ := exec_cases h
  · rw [exec_rd_eq] at h
    cases h
    exact hs
  · obtain ⟨_, rfl⟩ | ⟨hst, rfl⟩ := exec_wr_cases h
    · exact hs
    · exact writeCell_inv hs hst d _
  · exact unlessBusy_inv hs expandAccept_inv
  · exact unlessBusy_inv hs encryptPairAccept_inv

theorem passItem_sameCore (s : State) : s.SameCore s.passItem := by simp [State.SameCore, State.SameOperands]

/-- A poll of `WAIT` moves the host only. -/
theorem passPoll_sameCore (s : State) : s.SameCore s.passPoll := by
  unfold State.passPoll
  split <;> simp [State.SameCore, State.SameOperands]

/-- A move that completes a command completes the pending one. -/
theorem pend_of_nextMove_complete {s : State} {c : Command} (h : nextMove s = .complete c) : s.pend = some c := by
  obtain ⟨_, hm⟩ | ⟨_, c', hpend, _, hm⟩ | ⟨_, _, hm⟩ := nextMove_cases s <;> rw [hm] at h
  · cases h
  · cases h
    exact hpend
  · have hhost := hostMove_cases s
    simp [h] at hhost

/-- Settles O32: a reset event, a completion and a command establish the invariant anew; every other move keeps what it
speaks of. -/
theorem stepKeepsTheInvariant : Obligations.StepKeepsTheInvariant := by
  intro s t hs h
  obtain ⟨_, rfl⟩ | ⟨c, hm, rfl⟩ | ⟨i, _, hx⟩ | ⟨_, hx⟩ | ⟨bytes, _, rfl⟩ | ⟨_, rfl⟩ := step_cases h
  · exact resetEvent_inv s
  · exact complete_inv hs (pend_of_nextMove_complete hm)
  · exact exec_keeps_inv ((passItem_sameCore s).inv hs) hx
  · exact exec_keeps_inv ((passPoll_sameCore s).inv hs) hx
  · exact hs
  · exact hs

/-- Settles O33: `IDLE` with nothing pending and `ERR` 0x00, whatever the buffers hold. -/
theorem resetMeetsTheInvariant : Obligations.ResetMeetsTheInvariant := by
  simp [Obligations.ResetMeetsTheInvariant, State.Inv, State.reset]

end Sys2Proof.Machine
end

section
/-! A command in flight: nothing but a reset event keeps it from its completion (R232, R240, R245). -/

namespace Sys2Proof.Machine

/-- Nothing completes where nothing is pending. -/
theorem nextMove_ne_complete {s : State} (hpend : s.pend = none) (c : Command) : nextMove s ≠ .complete c :=
  fun h => by simp [pend_of_nextMove_complete h] at hpend

/-- With nothing pending, an accept step that leaves `ERROR` has changed `ST` and `ERR` only (R205). -/
theorem acceptOrRaise_error {s t : State} {c : Command} {check : Option ErrorKind} (hpend : s.pend = none)
    (h : .next (s.acceptOrRaise c check) = (.next t : Host.Outcome State Fault Refusal)) (herror : t.st = .error) :
    t = { s with st := .error, err := t.err } ∧
      (t.err = 0x01 ∨ t.err = 0x02 ∨ t.err = 0x03) ∧ t.pend = none ∧ ∀ c, nextMove t ≠ .complete c := by
  obtain ⟨e, _, hraise⟩ | ⟨_, haccept⟩ := acceptOrRaise_cases s c check
  · rw [hraise] at h
    cases h
    exact ⟨rfl, e.code_cases, hpend, nextMove_ne_complete hpend⟩
  · rw [haccept] at h
    cases h
    cases herror

/-- Settles O28: outside `BUSY` nothing is pending, and either command is its accept step. -/
theorem rejectionIsPrecise : Obligations.RejectionIsPrecise := by
  intro i s t hs hst hi h herror
  obtain rfl | rfl := hi
  · rw [exec_expand_free hst, expandAccept] at h
    exact acceptOrRaise_error (hs.pend_eq_none hst) h herror
  · rw [exec_encryptPair_free hst, encryptPairAccept] at h
    exact acceptOrRaise_error (hs.pend_eq_none hst) h herror

/-- While `BUSY` an instruction can change nothing but the host's record and the counter of free values. -/
theorem exec_busy {i : Instr} {s t : State} (hst : s.st = .busy) (h : exec i s = .next t) :
    t = { s with returned := t.returned, draws := t.draws } := by
  obtain ⟨a, rfl, _⟩ | ⟨a, d, rfl, _⟩ | ⟨rfl, rfl⟩ | ⟨rfl, rfl⟩ := exec_cases h
  · rw [exec_rd_eq] at h
    cases h
    rfl
  · rw [exec_wr_busy hst] at h
    cases h
    rfl
  · rw [unlessBusy_busy hst]
  · rw [unlessBusy_busy hst]

/-- The run is over only where the script is and nothing is pending. -/
theorem pend_of_nextMove_over {s : State} (h : nextMove s = .over) : s.pend = none := by
  obtain ⟨hhost, hpend⟩ := hostMove_of_nextMove h nofun nofun
  have hscript : s.script = [] := by simpa [hhost] using hostMove_cases s
  exact hpend.resolve_right fun hwait => hwait.2 hscript

/-- One host move with a command in flight: the core as it was, and one move fewer until the completion (log entry 2). -/
abbrev State.OneMoveOn (s t : State) : Prop :=
  s.SameCore t ∧ t.resetIn = s.resetIn ∧ t.latencyLeft = s.latencyLeft - 1

theorem passItem_oneMoveOn (s : State) : s.OneMoveOn s.passItem := ⟨passItem_sameCore s, rfl, rfl⟩

theorem passPoll_oneMoveOn (s : State) : s.OneMoveOn s.passPoll := by
  refine ⟨passPoll_sameCore s, ?_⟩
  unfold State.passPoll
  split <;> exact ⟨rfl, rfl⟩

/-- What an instruction does while `BUSY` leaves the move at that. -/
theorem State.OneMoveOn.exec {s m t : State} {i : Instr} (hm : s.OneMoveOn m) (hst : s.st = .busy)
    (h : exec i m = .next t) : s.OneMoveOn t := by
  obtain ⟨⟨hops, hst', herr⟩, hhost⟩ := hm
  rw [exec_busy (hst'.trans hst) h]
  exact ⟨⟨hops, hst', herr⟩, hhost⟩

/-- A step with a command in flight completes it, or is one host move. -/
theorem step_running_cases {s t : State} {c : Command} (hrun : s.Running c) (h : step s = .next t) :
    (nextMove s = .complete c ∧ t = complete c s) ∨ (s.latencyLeft ≠ 0 ∧ s.OneMoveOn t) := by
  obtain ⟨hst, hpend, hreset⟩ := hrun
  by_cases hlat : s.latencyLeft = 0
  · have hm := nextMove_complete_of_due hreset hpend (.inl hlat)
    rw [step_of_nextMove_complete hm] at h
    exact .inl ⟨hm, (Host.Outcome.next.inj h).symm⟩
  · obtain ⟨hm, _⟩ | ⟨c', hm, rfl⟩ | ⟨i, _, hx⟩ | ⟨_, hx⟩ | ⟨bytes, _, rfl⟩ | ⟨hm, _⟩ := step_cases h
    · simp [resetIn_of_nextMove_reset hm] at hreset
    · obtain rfl : c = c' := Option.some.inj (hpend.symm.trans (pend_of_nextMove_complete hm))
      exact .inl ⟨hm, rfl⟩
    · exact .inr ⟨hlat, (passItem_oneMoveOn s).exec hst hx⟩
    · exact .inr ⟨hlat, (passPoll_oneMoveOn s).exec hst hx⟩
    · exact .inr ⟨hlat, by simp [State.OneMoveOn, State.SameCore, State.SameOperands]⟩
    · simp [pend_of_nextMove_over hm] at hpend

/-- The command is still in flight after the move. -/
theorem State.OneMoveOn.running {s t : State} {c : Command} (h : s.OneMoveOn t) (hrun : s.Running c) : t.Running c := by
  obtain ⟨⟨_, hst, _, hpend⟩, hreset, _⟩ := h
  obtain ⟨hbusy, hcommand, hinput⟩ := hrun
  exact ⟨hst.trans hbusy, hpend.trans hcommand, hreset.trans hinput⟩

/-- Settles O13: the reset event spelled out, and the steps of a command in flight. -/
theorem onlyResetAbandonsACommand : Obligations.OnlyResetAbandonsACommand := by
  refine ⟨fun s hreset => ?_, fun s t c hrun h => ?_⟩
  · refine ⟨s.resetEvent, step_of_resetIn hreset, ?_⟩
    simp [nextMove_ne_complete (State.pend_resetEvent s)]
  · obtain ⟨_, ht⟩ | ⟨_, hmove⟩ := step_running_cases hrun h
    · exact .inr ht
    · exact .inl ⟨hmove.running hrun, hmove.1⟩

/-- Settles O31: the step was the completion, and it left the lengths with which the command had been accepted. -/
theorem encryptPairCanBeIssuedAgain : Obligations.EncryptPairCanBeIssuedAgain := by
  intro s t hs hrun h hdone
  obtain ⟨_, rfl⟩ | ⟨_, hmove⟩ := step_running_cases hrun h
  · obtain ⟨_, _, _, _, hlengths⟩ := hs
    obtain ⟨_, hpend, _⟩ := hrun
    obtain ⟨hblk, hsched⟩ := hlengths hpend
    obtain ⟨_, _, haccept⟩ := encryptPairAcceptStep (complete .encryptPair s) (by simp)
    refine haccept ?_ ?_ <;> rw [complete, encryptPairComplete]
    · rwa [State.blklen_finishEncryptPair]
    · rwa [State.schedlen_finishEncryptPair]
  · obtain ⟨hbusy, _⟩ := hmove.running hrun
    simp [hbusy] at hdone

/-- Settles O36: by induction on the latency that is left, which each host move takes one from. -/
theorem pendingCommandCompletesOnItsOperands : Obligations.PendingCommandCompletesOnItsOperands := by
  intro s t c hrun h
  induction hn : s.latencyLeft generalizing s with
  | zero =>
    obtain ⟨_, hpend, hreset⟩ := hrun
    have hm := nextMove_complete_of_due hreset hpend (.inl hn)
    exact ⟨0, s, le_rfl, rfl, State.SameCore.refl s, hm, step_of_nextMove_complete hm⟩
  | succ n ih =>
    obtain ⟨u, hstep, hrest⟩ := step_of_run_succ h
    obtain ⟨hm, _⟩ | ⟨_, hmove⟩ := step_running_cases hrun hstep
    · exact ⟨0, s, Nat.zero_le _, rfl, State.SameCore.refl s, hm, step_of_nextMove_complete hm⟩
    · have hrunning := hmove.running hrun
      obtain ⟨hcore, _, hlat⟩ := hmove
      rw [hn] at hlat hrest
      obtain ⟨k, v, hk, hkrun, hcore', hdone⟩ := ih u hrunning (by rwa [hlat]) hlat
      exact ⟨k + 1, v, Nat.succ_le_succ hk, (run_succ_of_step k hstep).trans hkrun, hcore.trans hcore', hdone⟩

end Sys2Proof.Machine
end

section
/-! Who writes each buffer and each length register (R20). -/

namespace Sys2Proof.Machine

/-- An accept step changes no buffer and no length. -/
theorem State.SameButStatus.sameOperands {s t : State} (h : s.SameButStatus t) : s.SameOperands t :=
  ⟨congrArg (·.keybuf) h, congrArg (·.blk) h, congrArg (·.sched) h, congrArg (·.keylen) h, congrArg (·.blklen) h,
    congrArg (·.schedlen) h⟩

/-- A write to a cell changes no buffer and no length register but the cell's own. -/
theorem writeCell_writes (d : Byte) (s : State) (c : Cell) :
    ((writeCell d s c).keybuf = s.keybuf ∨ ∃ n, c = .keybuf n) ∧
    ((writeCell d s c).blk = s.blk ∨ ∃ n, c = .blk n) ∧
    ((writeCell d s c).sched = s.sched ∨ ∃ n, c = .sched n) ∧
    ((writeCell d s c).keylen = s.keylen ∨ c = .keylen) ∧
    ((writeCell d s c).blklen = s.blklen ∨ c = .blklen) ∧
    ((writeCell d s c).schedlen = s.schedlen ∨ c = .schedlen) := by
  cases c with
  | cmd =>
    obtain ⟨hkey, hblk, hsched, hkeylen, hblklen, hschedlen⟩ := (issueCommand_sameButStatus d s).sameOperands
    exact ⟨.inl hkey, .inl hblk, .inl hsched, .inl hkeylen, .inl hblklen, .inl hschedlen⟩
  | _ => simp [writeCell]

theorem unlessBusy_sameOperands {s : State} {f : State → State} (h : s.SameOperands (f s)) :
    s.SameOperands (s.unlessBusy f) := by
  by_cases hst : s.st = .busy
  · rw [unlessBusy_busy hst]
    exact (State.SameCore.refl s).1
  · rwa [unlessBusy_free hst]

/-- An instruction changes the operands only as a write outside `BUSY`, on the cell of its offset. -/
theorem exec_operands_cases {i : Instr} {s t : State} (h : exec i s = .next t) :
    s.SameOperands t ∨ ∃ a d, i = .wr a d ∧ s.st ≠ .busy ∧ t = writeCell d s (cellOf a) := by
  obtain ⟨a, rfl, _⟩ | ⟨a, d, rfl, _⟩ | ⟨rfl, rfl⟩ | ⟨rfl, rfl⟩ := exec_cases h
  · rw [exec_rd_eq] at h
    cases h
    exact .inl (State.SameCore.refl s).1
  · obtain ⟨_, ht⟩ | ⟨hst, ht⟩ := exec_wr_cases h
    · exact .inl (ht ▸ (State.SameCore.refl s).1)
    · exact .inr ⟨a, d, rfl, hst, ht⟩
  · exact .inl (unlessBusy_sameOperands (acceptOrRaise_sameButStatus s .expand _).sameOperands)
  · exact .inl (unlessBusy_sameOperands (acceptOrRaise_sameButStatus s .encryptPair _).sameOperands)

/-- A step changes the operands only as a reset event, a completion, or a write outside `BUSY`. -/
theorem step_operands_cases {s t : State} (h : step s = .next t) (hreset : nextMove s ≠ .reset) :
    s.SameOperands t ∨ (∃ c, nextMove s = .complete c ∧ t = complete c s) ∨
      ∃ a d, nextMove s = .transact (.wr a d) ∧ s.st ≠ .busy ∧ t = writeCell d s.passItem (cellOf a) := by
  obtain ⟨hm, _⟩ | ⟨c, hm, rfl⟩ | ⟨i, hm, hx⟩ | ⟨_, hx⟩ | ⟨bytes, _, rfl⟩ | ⟨_, ht⟩ := step_cases h
  · exact absurd hm hreset
  · exact .inr (.inl ⟨c, hm, rfl⟩)
  · obtain hsame | ⟨a, d, rfl, hst, ht⟩ := exec_operands_cases hx
    · exact .inl hsame
    · exact .inr (.inr ⟨a, d, hm, hst, ht⟩)
  · obtain hsame | ⟨a, d, hi, _⟩ := exec_operands_cases hx
    · exact .inl ((passPoll_sameCore s).1.trans hsame)
    · cases hi
  · exact .inl (State.SameCore.refl s).1
  · exact .inl (ht ▸ (State.SameCore.refl s).1)

/-- Settles O34: a completion writes its result and its length, and a write reaches the element of its offset only. -/
theorem eachElementHasItsWritersOnly : Obligations.EachElementHasItsWritersOnly := by
  intro s t h hreset
  obtain ⟨hkey, hblk, hsched, hkeylen, hblklen, hschedlen⟩ | ⟨c, hm, rfl⟩ | ⟨a, d, hm, hst, rfl⟩ :=
    step_operands_cases h hreset
  · exact ⟨.inl hkey, .inl hblk, .inl hsched, .inl hkeylen, .inl hblklen, .inl hschedlen⟩
  · cases c with
    | expand => simp [hm, complete, expandComplete]
    | encryptPair => simp [hm, complete, encryptPairComplete]
  · obtain ⟨hkey, hblk, hsched, hkeylen, hblklen, hschedlen⟩ := writeCell_writes d s.passItem (cellOf a)
    refine ⟨hkey.imp_right fun hc => ?keybuf, hblk.imp_right fun hc => .inr ?blk,
      hsched.imp_right fun hc => .inr ?sched, hkeylen.imp_right fun hc => ?keylen,
      hblklen.imp_right fun hc => ?blklen, hschedlen.imp_right fun hc => .inr ?schedlen⟩
    case keybuf | blk | sched =>
      obtain ⟨n, hc⟩ := hc
      have ha := toNat_of_cellOf hc rfl
      exact ⟨a, d, hm, by omega, by omega, hst⟩
    case keylen => exact ⟨d, cellOf_inj (a := 0x004) nofun hc ▸ hm, hst⟩
    case blklen => exact ⟨d, cellOf_inj (a := 0x005) nofun hc ▸ hm, hst⟩
    case schedlen => exact ⟨d, cellOf_inj (a := 0x006) nofun hc ▸ hm, hst⟩

end Sys2Proof.Machine
end

section
/-! More of the field's multiplication (R113), and the S-box as a permutation (R116, R117). -/

namespace Sys2Proof.Machine

theorem gmul_zero_left (b : Byte) : gmul 0x00 b = 0x00 := by
  have h : gmul (0x00 ^^^ 0x00) b = gmul 0x00 b ^^^ gmul 0x00 b := gmul_xor_left 0x00 0x00 b
  simpa using h

/-- The multiplication by `b` goes through each turn of the loop that multiplies by `a`. -/
theorem gmulStep_map_gmul (a b : Byte) (pa : Byte × Byte) (k : Nat) :
    gmulStep a (pa.map (gmul · b) (gmul · b)) k = (gmulStep a pa k).map (gmul · b) (gmul · b) := by
  by_cases ha : a.getLsbD k <;> simp [gmulStep, ha, gmul_xor_left, gmul_xtime_left]

/-- So it goes through the whole loop. -/
theorem gmul_gmul_right_comm (c a b : Byte) : gmul (gmul c a) b = gmul (gmul c b) a := by
  have hfold := congrArg Prod.fst (List.foldl_hom (Prod.map (gmul · b) (gmul · b))
    (g₁ := gmulStep a) (g₂ := gmulStep a) (l := List.range 8) (gmulStep_map_gmul a b) (init := (0x00, c)))
  simp only [Prod.map_apply, Prod.map_fst, gmul_zero_left] at hfold
  exact hfold.symm

theorem gmul_comm (a b : Byte) : gmul a b = gmul b a := by
  have h := gmul_gmul_right_comm 0x01 a b
  rwa [gmul_one_left, gmul_one_left] at h

/-- Settles O41: commutativity carries the laws of the left factor to the right one. -/
theorem fieldMultiplicationLaws : Obligations.FieldMultiplicationLaws := by
  refine ⟨gmul_comm, gmul_xor_left, fun a => ⟨?_, ?_, ?_⟩,
    fun a ha => ⟨sboxAffineInv (sbox a), gmul_sboxAffineInv_sbox a ha⟩⟩
  · exact (gmul_comm a 0x01).trans (gmul_one_left a)
  · exact (gmul_comm a 0x00).trans (gmul_zero_left a)
  · exact (gmul_comm a 0x02).trans (gmul_two_left a)

/-- Two bytes with one inverse are the same. -/
theorem eq_of_gmul_eq_one {a b q : Byte} (ha : gmul a q = 0x01) (hb : gmul b q = 0x01) : a = b := by
  calc
    a = gmul (gmul b q) a := by rw [hb, gmul_one_left, mul1]
    _ = gmul (gmul a q) b := by rw [gmul_gmul_right_comm, gmul_comm b a, gmul_gmul_right_comm]
    _ = b := by rw [ha, gmul_one_left, mul1]

/-- Only 0x00 has the table's entry of 0x00: its entry goes back through the affine map to 0x00, which is no inverse. -/
theorem eq_zero_of_sbox_eq {a : Byte} (h : sbox a = sbox 0x00) : a = 0x00 := by
  by_contra ha
  have hinv := gmul_sboxAffineInv_sbox a ha
  have hzero : sboxAffineInv (sbox 0x00) = 0x00 := by decide
  rw [h, hzero, gmul_comm, gmul_zero_left] at hinv
  cases hinv

/-- Bytes with one entry of the table have one inverse. -/
theorem sbox_injective {a b : Byte} (h : sbox a = sbox b) : a = b := by
  by_cases ha : a = 0x00
  · subst ha
    exact (eq_zero_of_sbox_eq h.symm).symm
  · by_cases hb : b = 0x00
    · subst hb
      exact eq_zero_of_sbox_eq h
    · exact eq_of_gmul_eq_one (gmul_sboxAffineInv_sbox a ha) (h ▸ gmul_sboxAffineInv_sbox b hb)

/-- The table is data (R116), so that no entry is its own place or its complement is checked at each byte. -/
theorem sbox_no_fixed_points : ∀ a : Byte, sbox a ≠ a ∧ sbox a ≠ a ^^^ 0xFF := by
  decide

/-- Settles O43: an injection of the finitely many bytes is onto them. -/
theorem sboxIsABijectionWithoutFixedPoints : Obligations.SboxIsABijectionWithoutFixedPoints :=
  ⟨fun _ _ => sbox_injective, Finite.surjective_of_injective fun _ _ => sbox_injective, sbox_no_fixed_points⟩

/-- Settles O47: the round keys of `Expand` follow the round-key form. -/
theorem roundKeyFormOfExpand : Obligations.RoundKeyFormOfExpand := roundKey_expand_succ

/-- Settles O48: the key is read back from its expansion. -/
theorem firstRoundKeyIsTheKey : Obligations.FirstRoundKeyIsTheKey := by
  refine ⟨roundKey_expand_zero, fun key key' h => ?_⟩
  rw [← roundKey_expand_zero key, h, roundKey_expand_zero]

end Sys2Proof.Machine
end

section
/-! The two lanes of the pair register (R164, R172). -/

namespace Sys2Proof.Machine

/-- A pair is put together again from its lanes. -/
theorem joinLanes_lanes (V : Pair) : joinLanes (laneA V) (laneB V) = V := by
  refine Vector.ext fun n hn => ?_
  by_cases hlow : n < 16
  · rw [joinLanes_get_low _ _ n hlow, laneA_get]
  · obtain ⟨m, rfl⟩ := Nat.exists_eq_add_of_le (not_lt.mp hlow)
    rw [joinLanes_get_high _ _ m (by omega), laneB_get]

/-- What makes a function of the pair register one of its lanes: each operation on the register is the operation on the
lane (R164). -/
structure IsLane (lane : Pair → Block) : Prop where
  map_addRoundKeyV (V : Pair) (K : Block) : lane (addRoundKeyV V K) = addRoundKey (lane V) K
  map_subBytesV (V : Pair) : lane (subBytesV V) = subBytes (lane V)
  map_shiftRowsV (V : Pair) : lane (shiftRowsV V) = shiftRows (lane V)
  map_mixColumnsV (V : Pair) : lane (mixColumnsV V) = mixColumns (lane V)

theorem isLane_laneA : IsLane laneA where
  map_addRoundKeyV V K := Vector.ext fun n hn => by simp [Nat.mod_eq_of_lt hn]
  map_subBytesV V := Vector.ext fun n hn => by simp
  map_shiftRowsV V := Vector.ext fun n hn => by simp [Nat.mod_eq_of_lt hn, Nat.div_eq_of_lt hn]
  map_mixColumnsV V := Vector.ext fun n hn => by simp

/-- Lane B begins at byte 16, which is a column's first byte. -/
theorem isLane_laneB : IsLane laneB where
  map_addRoundKeyV V K := Vector.ext fun n hn => by simp [Nat.mod_eq_of_lt hn]
  map_subBytesV V := Vector.ext fun n hn => by simp
  map_shiftRowsV V := Vector.ext fun n hn => by
    have hlane : (16 + n) / 16 = 1 := by omega
    have hrow : (16 + n) % 4 = n % 4 := by omega
    have hcol : (16 + n) % 16 = n := by omega
    simp [hlane, hrow, hcol]
  map_mixColumnsV V := Vector.ext fun n hn => by
    have hrow : (16 + n) % 4 = n % 4 := by omega
    have hcol : 4 * ((16 + n) / 4) = 16 + 4 * (n / 4) := by omega
    simp [hrow, hcol, Nat.add_assoc]

/-- One full round on the pair register (R164, R165). -/
def fullRoundV (V : Pair) (K : Block) : Pair := addRoundKeyV (mixColumnsV (shiftRowsV (subBytesV V))) K

/-- The final round on the pair register (R164, R165). -/
def finalRoundV (V : Pair) (K : Block) : Pair := addRoundKeyV (shiftRowsV (subBytesV V)) K

theorem encryptPairV_eq (V : Pair) (sched : Schedule) :
    encryptPairV V sched =
      finalRoundV (fullRounds.foldl (fun X r => fullRoundV X (roundKey sched r)) (addRoundKeyV V (roundKey sched 0)))
        (roundKey sched 10) := rfl

namespace IsLane

variable {lane : Pair → Block}

theorem map_fullRoundV (h : IsLane lane) (V : Pair) (K : Block) : lane (fullRoundV V K) = fullRound (lane V) K := by
  rw [fullRoundV, fullRound, h.map_addRoundKeyV, h.map_mixColumnsV, h.map_shiftRowsV, h.map_subBytesV]

theorem map_finalRoundV (h : IsLane lane) (V : Pair) (K : Block) : lane (finalRoundV V K) = finalRound (lane V) K := by
  rw [finalRoundV, finalRound, h.map_addRoundKeyV, h.map_shiftRowsV, h.map_subBytesV]

/-- The whole sequence on the register is the sequence on the lane (R165, R172). -/
theorem map_encryptPairV (h : IsLane lane) (V : Pair) (sched : Schedule) :
    lane (encryptPairV V sched) = encryptBlock (lane V) sched := by
  have hrounds := List.foldl_hom lane (g₁ := fun X r => fullRoundV X (roundKey sched r))
    (g₂ := fun S r => fullRound S (roundKey sched r)) (l := fullRounds) (init := addRoundKeyV V (roundKey sched 0))
    fun X r => (h.map_fullRoundV X (roundKey sched r)).symm
  rw [encryptPairV_eq, h.map_finalRoundV, ← hrounds, h.map_addRoundKeyV, encryptBlock]

end IsLane

/-- Settles O52: lane by lane, each operation of the sequence is the lane's own. -/
theorem pairRegisterPipelineEqualsTheLanes : Obligations.PairRegisterPipelineEqualsTheLanes := by
  intro V sched
  rw [encryptPair, ← isLane_laneA.map_encryptPairV, ← isLane_laneB.map_encryptPairV, joinLanes_lanes]

@[simp] theorem laneA_encryptPair (V : Pair) (sched : Schedule) :
    laneA (encryptPair V sched) = encryptBlock (laneA V) sched := laneA_joinLanes _ _

@[simp] theorem laneB_encryptPair (V : Pair) (sched : Schedule) :
    laneB (encryptPair V sched) = encryptBlock (laneB V) sched := laneB_joinLanes _ _

/-- Settles O53: each lane of the result is `EncryptBlock` of the same lane of the pair. -/
theorem lanesAreIndependent : Obligations.LanesAreIndependent := by
  intro A B sched
  refine ⟨?_, ?_, ?_⟩
  · simp [encryptPair]
  · rw [laneA_encryptPair, laneB_encryptPair, laneA_joinLanes, laneB_joinLanes]
  · simp [encryptPair]

/-- The completion of `ENCRYPT_PAIR` leaves the encrypted pair in `BLK` (R174). -/
theorem blk_of_step_encryptPair {s t : State} (hm : nextMove s = .complete .encryptPair) (h : step s = .next t) :
    t.blk = encryptPair s.blk s.sched := by
  rw [step_of_nextMove_complete hm] at h
  cases h
  exact State.blk_finishEncryptPair ..

/-- Settles O54: each lane of `BLK` after the completion is `EncryptBlock` of that lane and the schedule. -/
theorem completedLaneDependsOnItsInputsOnly : Obligations.CompletedLaneDependsOnItsInputsOnly := by
  intro s s' t t' hm hm' hsched h h'
  rw [blk_of_step_encryptPair hm h, blk_of_step_encryptPair hm' h', hsched]
  refine ⟨fun hlane => ?_, fun hlane => ?_⟩
  · rw [laneA_encryptPair, laneA_encryptPair, hlane]
  · rw [laneB_encryptPair, laneB_encryptPair, hlane]

end Sys2Proof.Machine
end

section
/-! `WAIT`, `EXPECT` and the result of the last read (R104, R108). -/

namespace Sys2Proof.Machine

/-! `EXPECT` -/

theorem hostMove_of_expect {s : State} {bytes : List Byte} {rest : List HostItem}
    (hscript : s.script = .expect bytes :: rest) : hostMove s = .expect bytes := by
  rw [hostMove, hscript]

/-- Settles O38: the host passes the item and records the comparison, and does nothing else. -/
theorem expectIsNoTransaction : Obligations.ExpectIsNoTransaction := by
  intro s t bytes rest hreset hpend hscript h
  rw [step, nextMove_of_script_cons hreset hpend hscript, hostMove_of_expect hscript] at h
  cases h
  refine ⟨State.SameCore.refl s, rfl, by simp [hscript], rfl, rfl, ?_⟩
  have hresult : s.passExpect.readResult = s.readResult := rfl
  simp [hresult]

/-! `WAIT` -/

theorem hostMove_of_wait {s : State} {rest : List HostItem} (hscript : s.script = .wait :: rest) :
    hostMove s = .poll := by
  rw [hostMove, hscript]

/-- A poll of `WAIT` is a `RD STATUS`. -/
theorem step_wait {s : State} {rest : List HostItem} (hreset : s.resetIn = false)
    (hpend : s.pend = none ∨ s.latencyLeft ≠ 0) (hscript : s.script = .wait :: rest) :
    step s = .next (s.passPoll.pushReturned s.st.statusByte) := by
  have hexec := exec_rd_status s.passPoll
  rw [st_passPoll] at hexec
  rw [step, nextMove_of_script_cons hreset hpend hscript, hostMove_of_wait hscript]
  exact hexec

/-- A poll that sees `BUSY` leaves the host at its `WAIT`. -/
theorem passPoll_busy {s : State} {rest : List HostItem} (hst : s.st = .busy) (hscript : s.script = .wait :: rest) :
    s.passPoll = { s with latencyLeft := s.latencyLeft - 1, readFrom := s.returned.length } := by
  rw [State.passPoll, if_pos hst, State.stayAtItem, nextReadFrom_cons hscript]
  rfl

/-- Any other poll is the last one. -/
theorem passPoll_free {s : State} {rest : List HostItem} (hst : s.st ≠ .busy) (hscript : s.script = .wait :: rest) :
    s.passPoll = { s with latencyLeft := s.latencyLeft - 1, script := rest, pos := s.pos + 1,
                          readFrom := s.returned.length } := by
  rw [State.passPoll, if_neg hst, State.passItem, nextReadFrom_cons hscript, hscript]
  rfl

/-- At rest a `WAIT` is one poll, which returns the status. -/
theorem step_wait_free {s : State} {rest : List HostItem} (hrest : s.AtRest) (hscript : s.script = .wait :: rest) :
    step s = .next
      { s with latencyLeft := s.latencyLeft - 1, script := rest, pos := s.pos + 1, readFrom := s.returned.length,
               returned := s.returned ++ [s.st.statusByte] } := by
  obtain ⟨hreset, hst, hpend⟩ := hrest
  rw [step_wait hreset (.inl hpend) hscript, passPoll_free hst hscript]
  rfl

/-- What a poll that sees `BUSY` leaves: the host at its `WAIT`, with a byte 0x01 as the last read. -/
def State.afterBusyPoll (s : State) : State :=
  { s with latencyLeft := s.latencyLeft - 1, readFrom := s.returned.length, returned := s.returned ++ [0x01] }

/-- With a command in flight and its latency not used up, a `WAIT` is a poll that sees `BUSY`. -/
theorem step_wait_running {s : State} {c : Command} {rest : List HostItem} (hrun : s.Running c)
    (hscript : s.script = .wait :: rest) (hlat : s.latencyLeft ≠ 0) : step s = .next s.afterBusyPoll := by
  obtain ⟨hst, _, hreset⟩ := hrun
  have hbyte : s.st.statusByte = 0x01 := hst ▸ rfl
  rw [step_wait hreset (.inr hlat) hscript, passPoll_busy hst hscript, hbyte]
  rfl

@[simp] theorem latencyLeft_complete (c : Command) (s : State) : (complete c s).latencyLeft = s.latencyLeft := by
  cases c with
  | expand => rw [complete, expandComplete, State.latencyLeft_finishExpand]
  | encryptPair => rw [complete, encryptPairComplete, State.latencyLeft_finishEncryptPair]

/-- What a `WAIT` leaves that began with command `c` in flight: the completion, and one byte for each poll. -/
def State.afterWait (s : State) (c : Command) (rest : List HostItem) : State :=
  { complete c s with
    latencyLeft := 0, script := rest, pos := s.pos + 1, readFrom := s.returned.length + s.latencyLeft,
    returned := s.returned ++ List.replicate s.latencyLeft 0x01 ++ [0x02] }

/-- One poll more at the beginning of the `WAIT` is one byte more. -/
theorem afterWait_afterBusyPoll {s : State} (hlat : s.latencyLeft ≠ 0) (c : Command) (rest : List HostItem) :
    s.afterBusyPoll.afterWait c rest = s.afterWait c rest := by
  obtain ⟨n, hn⟩ := Nat.exists_eq_succ_of_ne_zero hlat
  have hlength : s.returned.length + 1 + n = s.returned.length + (n + 1) := by omega
  cases c <;>
    simp [State.afterWait, State.afterBusyPoll, complete, expandComplete, encryptPairComplete, State.finishExpand,
      State.finishEncryptPair, hn, hlength, List.replicate_succ]

/-- The polls of a `WAIT` up to the one that sees the command completed: by induction on the latency that is left. -/
theorem run_wait {s : State} {c : Command} {rest : List HostItem} (hrun : s.Running c)
    (hscript : s.script = .wait :: rest) : run (s.latencyLeft + 2) s = .next (s.afterWait c rest) := by
  induction hn : s.latencyLeft generalizing s with
  | zero =>
    obtain ⟨_, hpend, hreset⟩ := hrun
    obtain ⟨⟨hreset', hscript', hpos, _⟩, hreturned⟩ := complete_keeps_host c s
    have hfirst := step_of_nextMove_complete (nextMove_complete_of_due hreset hpend (.inl hn))
    have hrest : (complete c s).AtRest := ⟨hreset'.trans hreset, by simp, pend_complete c s⟩
    have hdone : St.done.statusByte = 0x02 := rfl
    have hlast := step_wait_free hrest (hscript'.trans hscript)
    rw [run_succ_of_step 1 hfirst, run_succ_of_step 0 hlast]
    simp [run, State.afterWait, hn, hpos, hreturned, hdone]
  | succ n ih =>
    have hlat : s.latencyLeft ≠ 0 := by simp [hn]
    have hafter : s.afterBusyPoll.latencyLeft = n := by simp [State.afterBusyPoll, hn]
    rw [run_succ_of_step (n + 2) (step_wait_running hrun hscript hlat), 
      ih (s := s.afterBusyPoll) hrun hscript hafter, afterWait_afterBusyPoll hlat]

/-- Settles O37: the polls of a `WAIT` with a command in flight, and the one poll of a `WAIT` at rest. -/
theorem waitPollsUntilNotBusy : Obligations.WaitPollsUntilNotBusy := by
  refine ⟨fun s c rest hrun hscript => run_wait hrun hscript, fun s rest hreset hst hpend hscript => ?_⟩
  rw [step_wait_free ⟨hreset, hst, hpend⟩ hscript]
  cases s.st <;> rfl

/-! The result of the last read -/

/-- A transaction is the word that the host's script has next. -/
theorem script_of_nextMove_transact {s : State} {i : Instr} (h : nextMove s = .transact i) :
    ∃ w joins rest, s.script = .word w joins :: rest ∧ decode w = .ok i := by
  obtain ⟨hhost, _⟩ := hostMove_of_nextMove h nofun nofun
  simpa [hhost] using hostMove_cases s

/-- A word that is no `RD` begins no read. -/
theorem nextReadFrom_of_not_read {s : State} {i : Instr} (h : nextMove s = .transact i) (hi : isRead i = false) :
    s.nextReadFrom = s.readFrom := by
  obtain ⟨w, joins, rest, hscript, hdecode⟩ := script_of_nextMove_transact h
  simp [nextReadFrom_cons hscript, beginsRead_word joins hdecode, hi]

theorem isRead_eq_false {i : Instr} (h : ∀ a, i ≠ .rd a) : isRead i = false := by
  cases i with
  | rd a => exact absurd rfl (h a)
  | _ => rfl

theorem readResult_congr {s t : State} (hreturned : t.returned = s.returned) (hfrom : t.readFrom = s.readFrom) :
    t.readResult = s.readResult := by
  rw [State.readResult, State.readResult, hreturned, hfrom]

/-- Settles O55: a `RD` line begins a read, and a move that is no read returns nothing and begins none. -/
theorem resultIsOfTheLastRead : Obligations.ResultIsOfTheLastRead := by
  refine ⟨fun s a rest hreset hpend hscript => ?_, fun s t h hread hpoll => ?_⟩
  · have hrd := stepRunsTheDecodedTransaction s _ false rest _ hreset hpend hscript (decode_encode_rd a)
    rw [exec_rd_eq] at hrd
    exact ⟨_, _, hrd, rfl, List.drop_left⟩
  · obtain ⟨_, rfl⟩ | ⟨c, _, rfl⟩ | ⟨i, hm, hx⟩ | ⟨hm, _⟩ | ⟨bytes, _, rfl⟩ | ⟨_, rfl⟩ := step_cases h
    · rfl
    · obtain ⟨⟨_, _, _, hfrom, _⟩, hreturned⟩ := complete_keeps_host c s
      exact readResult_congr hreturned hfrom
    · have hi : isRead i = false := isRead_eq_false fun a ha => hread a (ha ▸ hm)
      obtain ⟨⟨_, _, _, hfrom, _⟩, hreturned⟩ := exec_keeps_host hx
      exact readResult_congr (hreturned hi) (hfrom.trans (nextReadFrom_of_not_read hm hi))
    · exact absurd hm hpoll
    · rfl
    · rfl

end Sys2Proof.Machine
end

section
/-! The writes that a load expands to (R105, R106). -/

namespace Sys2Proof.Machine

section

variable (base lengthRegister : Addr) (room : Nat) (bytes : List Byte)

theorem length_loadItems : (loadItems base lengthRegister room bytes).length = min bytes.length room + 1 := by
  simp [loadItems, Nat.min_comm]

/-- Byte `m` goes to `base + m`, as far as the buffer has room. -/
theorem getElem?_loadItems {m : Nat} (hm : m < min bytes.length room) :
    (loadItems base lengthRegister room bytes)[m]? =
      some (transaction (.wr (base + BitVec.ofNat 12 m) (bytes.getD m 0x00))) := by
  obtain ⟨hlength, hroom⟩ := lt_min_iff.mp hm
  rw [loadItems, List.getElem?_append_left (by simp [hlength, hroom])]
  simp [hlength, hroom]

/-- The declared length comes last. -/
theorem getElem?_loadItems_last :
    (loadItems base lengthRegister room bytes)[min bytes.length room]? =
      some (transaction (.wr lengthRegister (BitVec.ofNat 8 bytes.length))) := by
  rw [loadItems, List.getElem?_append_right (by simp [Nat.min_comm])]
  simp [Nat.min_comm]

/-- What a load expands to, with the offsets of its writes counted from 0. -/
theorem loadItems_writes (offset : Nat) :
    (loadItems (BitVec.ofNat 12 offset) lengthRegister room bytes).length = min bytes.length room + 1 ∧
    (∀ m, m < min bytes.length room → (loadItems (BitVec.ofNat 12 offset) lengthRegister room bytes)[m]? =
      some (.word (encode (.wr (BitVec.ofNat 12 (offset + m)) (bytes.getD m 0x00))))) ∧
    (loadItems (BitVec.ofNat 12 offset) lengthRegister room bytes)[min bytes.length room]? =
      some (.word (encode (.wr lengthRegister (BitVec.ofNat 8 bytes.length)))) := by
  refine ⟨length_loadItems .., fun m hm => ?_, getElem?_loadItems_last ..⟩
  rw [getElem?_loadItems _ _ _ _ hm, BitVec.ofNat_add]
  rfl

end

/-- Settles O39: the three loads differ in the buffer, its room and its length register only. -/
theorem loadsWriteTheirBytesThenTheLength : Obligations.LoadsWriteTheirBytesThenTheLength :=
  ⟨fun bytes => loadItems_writes Offset.keylen 16 bytes 0x010,
    fun bytes => loadItems_writes Offset.blklen 32 bytes 0x020,
    fun bytes => loadItems_writes Offset.schedlen 176 bytes 0x100⟩

end Sys2Proof.Machine
end
